-- ==== Sys2Proof/Word.lean ====
section
/-! DEFINITION. The value types of 00_scope.md R8 to R10: Byte, Word, and the byte strings of fixed length. -/

namespace Sys2Proof

/-- A Byte (R8). -/
abbrev Byte := BitVec 8

/-- A Word (R8); its `+` and `-` are the spec's `+32` and `-32`. -/
abbrev Word := BitVec 32

/-- A frame: exactly 32 bytes, byte 0 first on the wire (R9, R90). -/
abbrev Frame := Vector Byte 32

/-- A uid: 7 bytes in wire order (R38). -/
abbrev Uid := Vector Byte 7

/-- A cipher block: 8 bytes (R73). -/
abbrev Block := Vector Byte 8

end Sys2Proof
end

