-- ==== Sys2Proof/Config.lean ====
section
/-! DEFINITION. The open parameters of 00_scope.md R7 as one record, and the free values of the model.
Nothing here has a value from outside the spec: the instance's record `Config.params` is any that meets
R7's constraints, by a constant that has no body. -/

namespace Sys2Proof

/-- What CLASSIFY answers for a READ reply (R7). -/
inductive Disc where
  | vehicle
  | character
  | unknown
deriving DecidableEq, Repr, Inhabited

/-- TX's answer to a Transmit (R50). -/
inductive TxResult where
  | ok
  | err
deriving DecidableEq, Repr, Inhabited

/-- Which of an enabled HostStep and an enabled RxStep goes first (R287). -/
inductive Turn where
  | host
  | rx
deriving DecidableEq, Repr, Inhabited

/-- One row of CATALOG (R44). -/
structure CatRow where
  present : Bool
  opc : Byte
  len : Byte
deriving DecidableEq, Repr, Inhabited

/-- The open parameters of R7. A CATALOG row has a field only for what the spec leaves open: SWITCH_PAD has none, the
lengths of SWITCH_PADS and LIST_MODEL are fixed, and READ, LIST_MODEL and INIT are always present (R100).
EVQ_DEPTH (1 to 255) is kept as its predecessor. TC_CAPACITY `none` is UNBOUNDED.
The five function parameters are given by a table of the arguments whose values are listed; any argument not listed
takes the value of a function without a body (assumption log 2). -/
structure Cfg where
  fadePad : CatRow
  flashPad : CatRow
  switchPadsPresent : Bool
  switchPadsOpc : Byte
  fadePads : CatRow
  flashPads : CatRow
  fadeRandom : CatRow
  readOpc : Byte
  readLen : Byte
  listModelOpc : Byte
  initOpc : Byte
  initLen : Byte
  seed : CatRow
  challenge : CatRow
  unnamed0C : CatRow
  unnamed0D : CatRow
  initPayload : List Byte
  padLeft : Byte
  padRight : Byte
  padAll : Byte
  actRemoved : Byte
  evtPadOff : Fin 32
  tcCapacity : Option Nat
  evqDepthPred : Fin 255
  deviceIndex : Byte
  readPayloadTab : List (Byte × List Byte)
  classifyTab : List (Frame × Disc)
  vehicleIdTab : List (Frame × BitVec 16)
  lmPlainTab : List (Byte × Block)
  charIdTab : List (Block × Word)
deriving DecidableEq, Repr, Inhabited

/-- The constraints of R7 that the types of `Cfg` do not already force. -/
def Cfg.wf (cfg : Cfg) : Bool :=
  decide (cfg.initPayload.length ≤ 27) &&
  decide (cfg.padLeft ≠ 1 ∧ cfg.padRight ≠ 1 ∧ cfg.padAll ≠ 1) &&
  decide (cfg.padLeft ≠ cfg.padRight ∧ cfg.padLeft ≠ cfg.padAll ∧ cfg.padRight ≠ cfg.padAll) &&
  decide (cfg.actRemoved ≠ 1) &&
  decide ((1 ≤ cfg.evtPadOff.val ∧ cfg.evtPadOff.val ≤ 3) ∨ 13 ≤ cfg.evtPadOff.val) &&
  decide (cfg.tcCapacity ≠ some 0)

/-- A record that meets R7's constraints: the evidence that there is one, which a constant without a body needs. No rule and
no statement rests on its values. -/
def Config.witness : { cfg : Cfg // cfg.wf = true } :=
  ⟨{ (default : Cfg) with padLeft := 2, padRight := 3, evtPadOff := 1 }, by decide⟩

/-- Any record that meets R7's constraints: no body, so nothing but the constraints can be proved of it, whatever the
evidence that there is one. Assumption log 1. -/
opaque Config.chosen [Inhabited { cfg : Cfg // cfg.wf = true }] : { cfg : Cfg // cfg.wf = true }

/-- The configuration of the instance (R7, R30). It meets R7's constraints, and no parameter's value is known.
Assumption log 1, 3. -/
def Config.params : Cfg := (@Config.chosen ⟨Config.witness⟩).val

/-- R7's constraints on the instance's configuration. -/
theorem Config.params_wf : Config.params.wf = true := (@Config.chosen ⟨Config.witness⟩).property

/-- READ_PAYLOAD where the record's table does not list the index (R7, D54). Assumption log 2. -/
opaque Config.readPayload : Byte → List Byte

/-- CLASSIFY where the record's table does not list the frame (R7, D55). Assumption log 2. -/
opaque Config.classify : Frame → Disc

/-- VEHICLE_ID where the record's table does not list the frame (R7, D56). Assumption log 2. -/
opaque Config.vehicleId : Frame → BitVec 16

/-- LM_PLAIN where the record's table does not list the index (R7, D57). Assumption log 2. -/
opaque Config.lmPlain : Byte → Block

/-- CHAR_ID where the record's table does not list the block (R7, D58). Assumption log 2. -/
opaque Config.charId : Block → Word

/-- The free answer of TX to the Transmit numbered by `State.draws` (R50, D12). Assumption log 4. -/
opaque Config.freeTxAnswer : Nat → TxResult

/-- The free choice between an enabled HostStep and an enabled RxStep (R287, D11). Assumption log 5. -/
opaque Config.freeTurn : Nat → Turn

end Sys2Proof
end

