-- ==== Sys2Proof/Machine/Catalog.lean ====
section
/-! DEFINITION. The Command Catalog (30_encoding.md R100) and the parameters of 00_scope.md R7 read from the
configuration record. -/

namespace Sys2Proof.Machine

open Sys2Proof

/-- A kind number with no row. -/
def noRow : CatRow := { present := false, opc := 0, len := 0 }

/-- CATALOG[k] (R100), with what the spec fixes: SWITCH_PAD whole, the lengths of SWITCH_PADS and LIST_MODEL, and the
presence of READ, LIST_MODEL and INIT. -/
def catalogRow (cfg : Cfg) (k : Nat) : CatRow :=
  match k with
  | 0x00 => { present := true, opc := 0xC0, len := 0x06 }
  | 0x01 => cfg.fadePad
  | 0x02 => cfg.flashPad
  | 0x03 => { present := cfg.switchPadsPresent, opc := cfg.switchPadsOpc, len := 0x0E }
  | 0x04 => cfg.fadePads
  | 0x05 => cfg.flashPads
  | 0x06 => cfg.fadeRandom
  | 0x07 => { present := true, opc := cfg.readOpc, len := cfg.readLen }
  | 0x08 => { present := true, opc := cfg.listModelOpc, len := 0x0A }
  | 0x09 => { present := true, opc := cfg.initOpc, len := cfg.initLen }
  | 0x0A => cfg.seed
  | 0x0B => cfg.challenge
  | 0x0C => cfg.unnamed0C
  | 0x0D => cfg.unnamed0D
  | _ => noRow

/-- The first kind from `k` on, among the next `n`, whose row is present with this opcode. -/
def findKind (cfg : Cfg) (opc : Byte) : Nat → Nat → Option Nat
  | 0, _ => none
  | n + 1, k =>
    if (catalogRow cfg k).present && (catalogRow cfg k).opc == opc then some k else findKind cfg opc n (k + 1)

/-- The command kind an opcode byte stands for: the first present row of CATALOG that has it (R100). -/
def kindOfOpcode (cfg : Cfg) (opc : Byte) : Option Nat := findKind cfg opc 14 0

/-- The value a table lists for `a`, or `d`. -/
def tableValue {α β : Type} [DecidableEq α] : List (α × β) → α → β → β
  | [], _, d => d
  | (x, y) :: t, a, d => if x = a then y else tableValue t a d

/-- READ_PAYLOAD(idx), at most 27 bytes (R7). -/
def readPayload (cfg : Cfg) (idx : Byte) : List Byte :=
  (tableValue cfg.readPayloadTab idx (Config.readPayload idx)).take 27

/-- CLASSIFY(f) (R7). -/
def classify (cfg : Cfg) (f : Frame) : Disc := tableValue cfg.classifyTab f (Config.classify f)

/-- VEHICLE_ID(f) (R7). -/
def vehicleId (cfg : Cfg) (f : Frame) : BitVec 16 := tableValue cfg.vehicleIdTab f (Config.vehicleId f)

/-- LM_PLAIN(idx) (R7). -/
def lmPlain (cfg : Cfg) (idx : Byte) : Block := tableValue cfg.lmPlainTab idx (Config.lmPlain idx)

/-- CHAR_ID(blk) (R7). -/
def charId (cfg : Cfg) (blk : Block) : Word := tableValue cfg.charIdTab blk (Config.charId blk)

/-- EVQ_DEPTH, 1 to 255 (R7). -/
def evqDepth (cfg : Cfg) : Nat := cfg.evqDepthPred.val + 1

/-- TC is full: TC_CAPACITY is a number and TC holds that many entries (42_correlator.md R225). -/
def cacheFull (cfg : Cfg) (entries : Nat) : Bool := cfg.tcCapacity == some entries

end Sys2Proof.Machine
end

