-- ==== Sys2Proof/Machine/Frame.lean ====
section
/-! DEFINITION. Byte strings and the pure functions of the Frame Codec: little-endian packing (00_scope.md R10), checksum,
assembly, payload-size mismatch, validation and verification (40_codec.md R140 to R143, R146). -/

namespace Sys2Proof.Machine

open Sys2Proof

/-- The first `n` bytes of `l` from position `at_`, bytes beyond its end being 0: an operand of a byte string. -/
def bytesAt (n : Nat) (l : List Byte) (at_ : Nat) : Vector Byte n :=
  Vector.ofFn fun i => l.getD (at_ + i.val) 0

/-- `zeros(k)` (R9). -/
def zeros (k : Nat) : List Byte := List.replicate k 0

/-- LE16 of the two bytes `b0`, `b1` (R10). -/
def le16 (b0 b1 : Byte) : BitVec 16 := b1 ++ b0

/-- LE16bytes (R10). -/
def le16Bytes (w : BitVec 16) : List Byte := [w.extractLsb' 0 8, w.extractLsb' 8 8]

/-- LE32 of four bytes (R10). -/
def le32 (b0 b1 b2 b3 : Byte) : Word := b3 ++ b2 ++ b1 ++ b0

/-- LE32bytes (R10). -/
def le32Bytes (w : Word) : List Byte :=
  [w.extractLsb' 0 8, w.extractLsb' 8 8, w.extractLsb' 16 8, w.extractLsb' 24 8]

/-- The Word pair of an 8-byte block (20_memory.md R73). -/
def blockWords (b : Block) : Word × Word := (le32 b[0] b[1] b[2] b[3], le32 b[4] b[5] b[6] b[7])

/-- The 8-byte block of a Word pair (R73). -/
def wordsBlock (v : Word × Word) : Block := bytesAt 8 (le32Bytes v.1 ++ le32Bytes v.2) 0

/-- CHECKSUM (R140): the sum modulo 256 of the bytes before position `p`. -/
def checksum (b : List Byte) (p : Nat) : Byte := BitVec.ofNat 8 ((b.take p).map BitVec.toNat).sum

/-- The header and payload of a frame, before its checksum (R141). -/
def frameHead (pfx opc len c : Byte) (pl : List Byte) : List Byte := [pfx, len, opc, c] ++ pl

/-- ASSEMBLE (R141): 32 bytes when the payload has at most 27, else 5 more than the payload. -/
def assemble (pfx opc len c : Byte) (pl : List Byte) : List Byte :=
  let h := frameHead pfx opc len c pl
  let s := h ++ [checksum h h.length]
  s ++ zeros (32 - s.length)

/-- PSM (R142): the payload has not `len - 2` bytes, compared as integers. -/
def payloadMismatch (len : Byte) (pl : List Byte) : Bool := decide (pl.length + 2 ≠ len.toNat)

/-- VALIDATE (R143). -/
def validFrame (s : List Byte) : Bool := s.length == 32

/-- VERIFY (R146): whether the byte at position f[1] + 2 is the sum of those before it, and that sum. -/
def verify (f : Frame) : Bool × Byte :=
  let p := f[1].toNat + 2
  if 31 < p then (false, 0)
  else
    let expected := checksum f.toList p
    (f.toList.getD p 0 == expected, expected)

end Sys2Proof.Machine
end

