-- ==== Sys2Proof/Syntax.lean ====
section
/-! DEFINITION. The instructions: one constructor for each row of spec/opcode_table.json. -/

namespace Sys2Proof

/-- The 17 host operations (30_encoding.md R107), the 5 classes of inbound frame (R126) and the 14 wire commands (R100).
A host operation carries its operands; an inbound frame is carried whole, since the pad byte's place, CLASSIFY and the
checksum check read bytes that depend on the configuration. -/
inductive Instr where
  -- host operations, R108 to R124
  | nop
  | teaEncipher (v0 v1 : Word)
  | teaDecipher (v0 v1 : Word)
  | teaEncode (b : Block)
  | teaDecode (b : Block)
  | frmChecksum (p : Byte) (f : Frame)
  | frmVerify (f : Frame)
  | frmAssemble (pfx opc len c : Byte) (pl : List Byte)
  | txCommand (k : Byte) (pl : List Byte)
  | txRaw (opc len : Byte) (pl : List Byte)
  | txInit
  | evtPop
  | cacheLookup (uid : Uid)
  | ptRead (c : Byte)
  | statusRead
  | statusClear (mask : BitVec 16)
  | ctrlWrite (v : Byte)
  -- inbound frames, R126
  | rxEvent (f : Frame)
  | rxReadReply (f : Frame)
  | rxModelReply (f : Frame)
  | rxBadMarker (f : Frame)
  | rxBadPrefix (f : Frame)
  -- wire commands, R100 and R101 (assumption log 11)
  | wireSwitchPad (pad r g b : Byte)
  | wireFadePad (pl : List Byte)
  | wireFlashPad (pl : List Byte)
  | wireSwitchPads (pl : List Byte)
  | wireFadePads (pl : List Byte)
  | wireFlashPads (pl : List Byte)
  | wireFadeRandom (pl : List Byte)
  | wireRead (pl : List Byte)
  | wireListModel (pl : List Byte)
  | wireInit
  | wireSeed (pl : List Byte)
  | wireChallenge (pl : List Byte)
  | wireUnnamed0C (pl : List Byte)
  | wireUnnamed0D (pl : List Byte)
deriving DecidableEq, Repr

/-- What HOST can have outstanding: a request, which is any byte string (R103), or a command frame on the model's own
command port (assumption log 11). -/
inductive HostItem where
  | request (b : List Byte)
  | command (f : Frame)
deriving DecidableEq, Repr

/-- The words of an instruction, with the port they arrive by: HOST's, or the transport's receive side (R46). -/
inductive Code where
  | host (h : HostItem)
  | rx (f : Frame)
deriving DecidableEq, Repr

/-- Why words are no instruction. `empty`, `illegalOp` and `badLength` are the checks of 43_control.md R259;
`notACommand` is a command frame whose opcode and length are those of no present CATALOG row. -/
inductive DecodeError where
  | empty
  | illegalOp
  | badLength
  | notACommand
deriving DecidableEq, Repr

/-- The decoder's answer. -/
inductive Decoded where
  | ok (i : Instr)
  | rejected (e : DecodeError)
deriving DecidableEq, Repr

end Sys2Proof
end

