-- ==== Sys2Proof/WellFormed.lean ====
section
/-! DEFINITION. Which instructions have words of their own under a configuration. -/

namespace Sys2Proof

open Sys2Proof.Machine

/-- A payload whose length fits the count byte of a request (30_encoding.md R115 to R117). -/
def countable (pl : List Byte) : Bool := decide (pl.length ≤ 255)

/-- A wire command of kind `k` has words of its own: its row is present, no earlier present row has its opcode, and the
payload has the declared length less 2, at most 27 bytes (R93, R94, R100). -/
def wireWf (cfg : Cfg) (k : Nat) (pl : List Byte) : Bool :=
  (kindOfOpcode cfg (catalogRow cfg k).opc == some k) &&
  decide (pl.length + 2 = (catalogRow cfg k).len.toNat) && decide (pl.length ≤ 27)

/-- Well-formedness of an instruction under a configuration. -/
def Instr.wf (cfg : Cfg) : Instr → Bool
  | .nop => true
  | .teaEncipher _ _ => true
  | .teaDecipher _ _ => true
  | .teaEncode _ => true
  | .teaDecode _ => true
  | .frmChecksum _ _ => true
  | .frmVerify _ => true
  | .frmAssemble _ _ _ _ pl => countable pl
  | .txCommand _ pl => countable pl
  | .txRaw _ _ pl => countable pl
  | .txInit => true
  | .evtPop => true
  | .cacheLookup _ => true
  | .ptRead _ => true
  | .statusRead => true
  | .statusClear _ => true
  | .ctrlWrite _ => true
  | .rxEvent f => f[0] == 0x56
  | .rxReadReply f => f[0] == 0x55 && f[2] == 0x12
  | .rxModelReply f => f[0] == 0x55 && f[2] == 0x0A
  | .rxBadMarker f => f[0] == 0x55 && !(f[2] == 0x12) && !(f[2] == 0x0A)
  | .rxBadPrefix f => !(f[0] == 0x55) && !(f[0] == 0x56)
  | .wireSwitchPad pad r g b => wireWf cfg 0x00 [pad, r, g, b]
  | .wireFadePad pl => wireWf cfg 0x01 pl
  | .wireFlashPad pl => wireWf cfg 0x02 pl
  | .wireSwitchPads pl => wireWf cfg 0x03 pl
  | .wireFadePads pl => wireWf cfg 0x04 pl
  | .wireFlashPads pl => wireWf cfg 0x05 pl
  | .wireFadeRandom pl => wireWf cfg 0x06 pl
  | .wireRead pl => wireWf cfg 0x07 pl
  | .wireListModel pl => wireWf cfg 0x08 pl
  | .wireInit => (kindOfOpcode cfg cfg.initOpc == some 0x09)
  | .wireSeed pl => wireWf cfg 0x0A pl
  | .wireChallenge pl => wireWf cfg 0x0B pl
  | .wireUnnamed0C pl => wireWf cfg 0x0C pl
  | .wireUnnamed0D pl => wireWf cfg 0x0D pl

end Sys2Proof
end

