-- ==== Sys2Proof/Decode.lean ====
section
/-! DEFINITION. Decoding of host requests (30_encoding.md R107, R128; 43_control.md R259), of inbound frames (R126) and of
command frames (R91, R100), total on any bytes; and the encoder, from the same formats (R108 to R118). -/

namespace Sys2Proof

open Sys2Proof.Machine

/-- REQLEN (R128): the length that an assigned OP gives a request, with its count byte where it has one; `none` for an OP
that R107 does not assign. -/
def reqLen (req : List Byte) : Option Nat :=
  match (req.getD 0 0).toNat with
  | 0x00 => some 1
  | 0x01 => some 9
  | 0x02 => some 9
  | 0x03 => some 9
  | 0x04 => some 9
  | 0x10 => some 34
  | 0x11 => some 33
  | 0x12 => some (6 + (req.getD 5 0).toNat)
  | 0x13 => some (3 + (req.getD 2 0).toNat)
  | 0x14 => some (4 + (req.getD 3 0).toNat)
  | 0x15 => some 1
  | 0x20 => some 1
  | 0x21 => some 8
  | 0x22 => some 2
  | 0x30 => some 1
  | 0x31 => some 3
  | 0x32 => some 2
  | _ => none

/-- The Word at position `i` of a request (R75). -/
def wordAt (req : List Byte) (i : Nat) : Word :=
  le32 (req.getD i 0) (req.getD (i + 1) 0) (req.getD (i + 2) 0) (req.getD (i + 3) 0)

/-- The instruction of a request whose OP and length are right: its operands by the formats R108 to R124. -/
def reqInstr (req : List Byte) : Decoded :=
  match (req.getD 0 0).toNat with
  | 0x00 => .ok .nop
  | 0x01 => .ok (.teaEncipher (wordAt req 1) (wordAt req 5))
  | 0x02 => .ok (.teaDecipher (wordAt req 1) (wordAt req 5))
  | 0x03 => .ok (.teaEncode (bytesAt 8 req 1))
  | 0x04 => .ok (.teaDecode (bytesAt 8 req 1))
  | 0x10 => .ok (.frmChecksum (req.getD 1 0) (bytesAt 32 req 2))
  | 0x11 => .ok (.frmVerify (bytesAt 32 req 1))
  | 0x12 => .ok (.frmAssemble (req.getD 1 0) (req.getD 2 0) (req.getD 3 0) (req.getD 4 0) (req.drop 6))
  | 0x13 => .ok (.txCommand (req.getD 1 0) (req.drop 3))
  | 0x14 => .ok (.txRaw (req.getD 1 0) (req.getD 2 0) (req.drop 4))
  | 0x15 => .ok .txInit
  | 0x20 => .ok .evtPop
  | 0x21 => .ok (.cacheLookup (bytesAt 7 req 1))
  | 0x22 => .ok (.ptRead (req.getD 1 0))
  | 0x30 => .ok .statusRead
  | 0x31 => .ok (.statusClear (le16 (req.getD 1 0) (req.getD 2 0)))
  | 0x32 => .ok (.ctrlWrite (req.getD 1 0))
  | _ => .rejected .illegalOp

/-- Decoding of a host request, in the order of R259: empty, then OP, then length. -/
def decodeRequest (req : List Byte) : Decoded :=
  if req.length = 0 then .rejected .empty
  else
    match reqLen req with
    | none => .rejected .illegalOp
    | some n => if req.length = n then reqInstr req else .rejected .badLength

/-- Classification of an inbound frame by bytes 0 and 2 (R126): every frame has a class. -/
def decodeFrame (f : Frame) : Instr :=
  if f[0] = 0x56 then .rxEvent f
  else if f[0] = 0x55 then
    if f[2] = 0x12 then .rxReadReply f
    else if f[2] = 0x0A then .rxModelReply f
    else .rxBadMarker f
  else .rxBadPrefix f

/-- The wire command of kind `k` with payload `pl`. -/
def wireInstr (k : Nat) (pl : List Byte) : Decoded :=
  match k with
  | 0x00 => .ok (.wireSwitchPad (pl.getD 0 0) (pl.getD 1 0) (pl.getD 2 0) (pl.getD 3 0))
  | 0x01 => .ok (.wireFadePad pl)
  | 0x02 => .ok (.wireFlashPad pl)
  | 0x03 => .ok (.wireSwitchPads pl)
  | 0x04 => .ok (.wireFadePads pl)
  | 0x05 => .ok (.wireFlashPads pl)
  | 0x06 => .ok (.wireFadeRandom pl)
  | 0x07 => .ok (.wireRead pl)
  | 0x08 => .ok (.wireListModel pl)
  | 0x09 => .ok .wireInit
  | 0x0A => .ok (.wireSeed pl)
  | 0x0B => .ok (.wireChallenge pl)
  | 0x0C => .ok (.wireUnnamed0C pl)
  | 0x0D => .ok (.wireUnnamed0D pl)
  | _ => .rejected .notACommand

/-- Decoding of a command frame (R91, R93, R100): prefix 0x55, the row its opcode selects, the row's declared length L, and
the L - 2 payload bytes from byte 4. Counter and checksum are not read: sending supplies them. -/
def decodeCommand (cfg : Cfg) (f : List Byte) : Decoded :=
  match kindOfOpcode cfg (f.getD 2 0) with
  | none => .rejected .notACommand
  | some k =>
    if f.getD 0 0 = 0x55 ∧ f.getD 1 0 = (catalogRow cfg k).len then
      wireInstr k ((f.drop 4).take ((f.getD 1 0).toNat - 2))
    else .rejected .notACommand

/-- Decoding of what stands at a port. -/
def decode (cfg : Cfg) : Code → Decoded
  | .host (.request b) => decodeRequest b
  | .host (.command f) => decodeCommand cfg f.toList
  | .rx f => .ok (decodeFrame f)

/-- The command frame of kind `k` with payload `pl` and counter byte `c` (R91). -/
def commandFrame (cfg : Cfg) (k : Nat) (c : Byte) (pl : List Byte) : List Byte :=
  assemble 0x55 (catalogRow cfg k).opc (catalogRow cfg k).len c pl

/-- A command frame on HOST's command port, with counter byte 0: sending assigns the counter. -/
def commandCode (cfg : Cfg) (k : Nat) (pl : List Byte) : Code :=
  .host (.command (bytesAt 32 (commandFrame cfg k 0 pl) 0))

/-- A request on HOST's port. -/
def requestCode (b : List Byte) : Code := .host (.request b)

/-- The words of an instruction, by the formats R108 to R124 (requests), R126 (frames) and R91 with R100 (commands). -/
def encode (cfg : Cfg) : Instr → Code
  | .nop => requestCode [0x00]
  | .teaEncipher v0 v1 => requestCode (0x01 :: (le32Bytes v0 ++ le32Bytes v1))
  | .teaDecipher v0 v1 => requestCode (0x02 :: (le32Bytes v0 ++ le32Bytes v1))
  | .teaEncode b => requestCode (0x03 :: b.toList)
  | .teaDecode b => requestCode (0x04 :: b.toList)
  | .frmChecksum p f => requestCode (0x10 :: p :: f.toList)
  | .frmVerify f => requestCode (0x11 :: f.toList)
  | .frmAssemble pfx opc len c pl => requestCode ([0x12, pfx, opc, len, c, BitVec.ofNat 8 pl.length] ++ pl)
  | .txCommand k pl => requestCode ([0x13, k, BitVec.ofNat 8 pl.length] ++ pl)
  | .txRaw opc len pl => requestCode ([0x14, opc, len, BitVec.ofNat 8 pl.length] ++ pl)
  | .txInit => requestCode [0x15]
  | .evtPop => requestCode [0x20]
  | .cacheLookup uid => requestCode (0x21 :: uid.toList)
  | .ptRead c => requestCode [0x22, c]
  | .statusRead => requestCode [0x30]
  | .statusClear mask => requestCode (0x31 :: le16Bytes mask)
  | .ctrlWrite v => requestCode [0x32, v]
  | .rxEvent f => .rx f
  | .rxReadReply f => .rx f
  | .rxModelReply f => .rx f
  | .rxBadMarker f => .rx f
  | .rxBadPrefix f => .rx f
  | .wireSwitchPad pad r g b => commandCode cfg 0x00 [pad, r, g, b]
  | .wireFadePad pl => commandCode cfg 0x01 pl
  | .wireFlashPad pl => commandCode cfg 0x02 pl
  | .wireSwitchPads pl => commandCode cfg 0x03 pl
  | .wireFadePads pl => commandCode cfg 0x04 pl
  | .wireFlashPads pl => commandCode cfg 0x05 pl
  | .wireFadeRandom pl => commandCode cfg 0x06 pl
  | .wireRead pl => commandCode cfg 0x07 pl
  | .wireListModel pl => commandCode cfg 0x08 pl
  | .wireInit => .host (.command (bytesAt 32 (commandFrame cfg 0x09 0x01 cfg.initPayload) 0))
  | .wireSeed pl => commandCode cfg 0x0A pl
  | .wireChallenge pl => commandCode cfg 0x0B pl
  | .wireUnnamed0C pl => commandCode cfg 0x0C pl
  | .wireUnnamed0D pl => commandCode cfg 0x0D pl

/-- The `n` bytes of `w`, least significant first. -/
def lowBytes : Nat → Nat → List Byte
  | 0, _ => []
  | n + 1, w => BitVec.ofNat 8 w :: lowBytes n (w / 256)

/-- A request from its first bytes, every further byte 0, of the length R128 gives it (its one byte where the OP is not
assigned). -/
def paddedRequest (b : List Byte) : List Byte :=
  let z := b ++ zeros 34
  match reqLen z with
  | none => b
  | some n => (z ++ zeros n).take n

/-- The words that `spec/opcode_table.json` describes with the number `w` of `nbits` bits, every other operand bit 0
(assumption log 12). 24 bits: the bytes f[0], f[1], f[2] of an inbound frame, f[0] most significant. Else a host request,
first byte least significant; and where 8 bits are no assigned OP but the opcode of a present CATALOG row, that row's
command frame. -/
def tableCode (cfg : Cfg) (nbits w : Nat) : Code :=
  if nbits = 24 then .rx (bytesAt 32 [BitVec.ofNat 8 (w / 65536), BitVec.ofNat 8 (w / 256), BitVec.ofNat 8 w] 0)
  else
    let req := paddedRequest (lowBytes (nbits / 8) w)
    match decodeRequest req with
    | .ok _ => requestCode req
    | .rejected _ =>
      match kindOfOpcode cfg (BitVec.ofNat 8 w) with
      | some k => .host (.command (bytesAt 32 [0x55, (catalogRow cfg k).len, BitVec.ofNat 8 w] 0))
      | none => requestCode req

/-- The instruction the decoder reads from the words of `tableCode`, under the instance's configuration. -/
def decodeTableWord (nbits w : Nat) : Option Instr :=
  match decode Config.params (tableCode Config.params nbits w) with
  | .ok i => some i
  | .rejected _ => none

end Sys2Proof
end

