-- ==== Sys2Proof/Machine/Cipher.lean ====
section
/-! DEFINITION. The Tag Cipher's functions (41_cipher.md R180 to R187). The constants, the mixing function and the loop are the
published TEA, which the spec supplies from general knowledge (assumption log 13). -/

namespace Sys2Proof.Machine

open Sys2Proof

/-- KEY (10_state.md R43). -/
def tagKey : List Byte :=
  [0x55, 0xFE, 0xF6, 0xB0, 0x62, 0xBF, 0x0B, 0x41, 0xC9, 0xB3, 0x7C, 0xB4, 0x97, 0x3E, 0x29, 0x7B]

/-- `K[i] = LE32(KEY[4i..4i+4))` (R180). -/
def subkey (i : Nat) : Word :=
  le32 (tagKey.getD (4 * i) 0) (tagKey.getD (4 * i + 1) 0) (tagKey.getD (4 * i + 2) 0) (tagKey.getD (4 * i + 3) 0)

/-- DELTA (R181). -/
def teaDelta : Word := 0x9E3779B9

/-- SUM_END = 32 * DELTA (R181). -/
def teaSumEnd : Word := 0xC6EF3720

/-- F (R182). -/
def teaMix (x s ka kb : Word) : Word := ((x <<< 4) + ka) ^^^ (x + s) ^^^ ((x >>> 5) + kb)

/-- One cycle of ENCIPHER's words with the sum `s` (R183): the second line uses the first word just computed. -/
def encipherCycle (s : Word) (v : Word × Word) : Word × Word :=
  let v0 := v.1 + teaMix v.2 s (subkey 0) (subkey 1)
  (v0, v.2 + teaMix v0 s (subkey 2) (subkey 3))

/-- One cycle of ENCIPHER, the sum first: DELTA is added before the words change (R183). -/
def encipherStep (p : Word × (Word × Word)) : Word × (Word × Word) :=
  (p.1 + teaDelta, encipherCycle (p.1 + teaDelta) p.2)

/-- ENCIPHER: 32 cycles from the sum 0 (R183). -/
def encipher (v : Word × Word) : Word × Word := (encipherStep^[32] (0, v)).2

/-- One cycle of DECIPHER's words with the sum `s` (R184): the second line uses the second word just computed. -/
def decipherCycle (s : Word) (v : Word × Word) : Word × Word :=
  let v1 := v.2 - teaMix v.1 s (subkey 2) (subkey 3)
  (v.1 - teaMix v1 s (subkey 0) (subkey 1), v1)

/-- One cycle of DECIPHER, the sum first: DELTA is subtracted after the words have changed (R184). -/
def decipherStep (p : Word × (Word × Word)) : Word × (Word × Word) :=
  (p.1 - teaDelta, decipherCycle p.1 p.2)

/-- DECIPHER: 32 cycles from the sum SUM_END (R184). -/
def decipher (v : Word × Word) : Word × Word := (decipherStep^[32] (teaSumEnd, v)).2

/-- ENCODE (R186). -/
def encodeBlock (b : Block) : Block := wordsBlock (encipher (blockWords b))

/-- DECODE (R187). -/
def decodeBlock (b : Block) : Block := wordsBlock (decipher (blockWords b))

end Sys2Proof.Machine
end

