-- ==== Sys2Proof/Machine/State.lean ====
section
/-! DEFINITION. The state of one JTPC instance (10_state.md R30) with its configuration, what its agents offer it and what
a program observes of it (R46, R55); and the state right after reset (70_reset_and_hazards.md R311). -/

namespace Sys2Proof.Machine

open Sys2Proof

/-- What a pending entry awaits (R38): AWAIT_READ = 0, AWAIT_MODEL = 1. -/
inductive Stage where
  | awaitRead
  | awaitModel
deriving DecidableEq, Repr

/-- A PT entry (R38). -/
structure PtEntry where
  valid : Bool
  stage : Stage
  pad : Byte
  idx : Byte
  uid : Uid
deriving DecidableEq, Repr

/-- The kind of a Tag (R40): CHARACTER = 1, VEHICLE = 2. -/
inductive TagKind where
  | character
  | vehicle
deriving DecidableEq, Repr

/-- A Tag record (R40). -/
structure Tag where
  kind : TagKind
  id : Word
deriving DecidableEq, Repr

/-- The action of a tag event (R42). -/
inductive Action where
  | added
  | removed
deriving DecidableEq, Repr

/-- A tag-event record (R42). `tag` holds resolved, kind and id together: absent is resolved = 0, kind = 0, id = 0. -/
structure TagEvent where
  pad : Byte
  action : Action
  tag : Option Tag
  device : Byte
  uid : Uid
deriving DecidableEq, Repr

/-- The machine. The first seven fields are the tuple of R30. `cfg` is its configuration, which no step writes.
The rest is what the agents of R46 offer and what R55 lets a program observe. -/
structure State where
  /-- CTR, the outgoing message counter (R31). -/
  ctr : Byte
  /-- INIT_DONE (R32). -/
  initDone : Bool
  /-- STATUS as stored: bits 1 to 8 and 15:12; the others are computed when it is read (R33, R34). -/
  status : BitVec 16
  /-- CTRL (R36). -/
  ctrl : BitVec 8
  /-- PT, indexed by counter value (R37). -/
  pt : Vector PtEntry 256
  /-- TC, strictly rising by uid (R39; assumption log 16). -/
  tc : List (Uid × Tag)
  /-- EVQ, oldest first (R41). -/
  evq : List TagEvent
  /-- The open parameters of this instance (R7; assumption log 1). -/
  cfg : Cfg
  /-- HOST's requests; the head is the outstanding one (R49; assumption log 6). -/
  hostq : List HostItem
  /-- The frames the transport holds for JTPC, oldest first (R47; assumption log 6). -/
  rxq : List Frame
  /-- The reset input is asserted (R310; assumption log 9). -/
  rst : Bool
  /-- TX's coming answers to Transmit (R50; assumption log 4). -/
  txAnswers : List TxResult
  /-- The coming choices between an enabled HostStep and an enabled RxStep (R287; assumption log 5). -/
  turns : List Turn
  /-- How many free answers and choices were drawn: the argument of the next (assumption log 4, 5). -/
  draws : Nat
  /-- The responses given to HOST, oldest first (R55). -/
  responses : List (List Byte)
  /-- The byte strings passed to Transmit with their outcomes, oldest first (R55). -/
  txLog : List (List Byte × TxResult)
deriving DecidableEq, Repr

/-- JTPC has no trap and nothing in the spec stops it (60_exceptions.md R280): no fault exists. -/
inductive Fault where
deriving DecidableEq, Repr

/-- Why a step has no meaning. -/
inductive Refusal where
  /-- Raised by `exec`'s arm for an instruction that has no meaning yet. Safe: nothing is proved of the step. -/
  | notModelled (mnemonic : String)
  /-- Raised by `step` when the model's own command port holds a frame that is no command of the catalog
  (assumption log 11). Safe: no such frame comes from HOST in the spec. -/
  | notACommandFrame
deriving DecidableEq, Repr

/-- An invalid PT entry as reset leaves it. Its fields beside `valid` are unspecified and never read (R311): zeros,
DESIGN CHOICE, assumption log 10. -/
def PtEntry.blank : PtEntry :=
  { valid := false, stage := .awaitRead, pad := 0, idx := 0, uid := Vector.replicate 7 0 }

/-- The state right after reset (R311), with nothing offered and nothing observed yet. -/
def State.reset : State :=
  { ctr := 0x02
    initDone := false
    status := 0
    ctrl := 0
    pt := Vector.replicate 256 PtEntry.blank
    tc := []
    evq := []
    cfg := Config.params
    hostq := []
    rxq := []
    rst := false
    txAnswers := []
    turns := []
    draws := 0
    responses := []
    txLog := [] }

end Sys2Proof.Machine
end

