-- ==== Sys2Proof/Machine/Flags.lean ====
section
/-! DEFINITION. The STATUS and CTRL registers (10_state.md R33 to R36): the sticky flags, LAST_DROP, the computed bits,
and every change of them. -/

namespace Sys2Proof.Machine

open Sys2Proof

/-- The W1C sticky flags of STATUS (R33). -/
inductive Flag where
  | psm
  | proto
  | txerr
  | futxerr
  | ptcoll
  | tcfull
  | rxdrop
  | rxcksum
deriving DecidableEq, Repr

/-- A flag's bit number in STATUS (R33). -/
def Flag.bit : Flag → Nat
  | .psm => 1
  | .proto => 2
  | .txerr => 3
  | .futxerr => 4
  | .ptcoll => 5
  | .tcfull => 6
  | .rxdrop => 7
  | .rxcksum => 8

/-- The reasons for dropping an inbound frame (R35). -/
inductive DropReason where
  | notInit
  | cksum
  | badPrefix
  | badPad
  | badAction
  | badMarker
  | noPending
  | stage
  | badDisc
deriving DecidableEq, Repr

/-- The LAST_DROP code of a reason (R35). -/
def DropReason.code : DropReason → BitVec 4
  | .notInit => 0x1
  | .cksum => 0x2
  | .badPrefix => 0x3
  | .badPad => 0x4
  | .badAction => 0x5
  | .badMarker => 0x6
  | .noPending => 0x7
  | .stage => 0x8
  | .badDisc => 0x9

/-- STATUS with a sticky flag set. -/
def withFlag (st : BitVec 16) (f : Flag) : BitVec 16 := st ||| (1#16 <<< f.bit)

/-- A sticky flag of STATUS. -/
def flagOf (st : BitVec 16) (f : Flag) : Bool := st.getLsbD f.bit

/-- LAST_DROP, STATUS bits 15:12 (R33). -/
def lastDropOf (st : BitVec 16) : BitVec 4 := st.extractLsb' 12 4

/-- STATUS with LAST_DROP written. -/
def withLastDrop (st : BitVec 16) (code : BitVec 4) : BitVec 16 := code ++ st.extractLsb' 0 12

/-- STATUS after STATUS_CLEAR (R34, R262): the flags of bits 1 to 8 that `mask` selects become 0, and LAST_DROP with
RXDROP; every other mask bit has no effect. -/
def clearedStatus (st mask : BitVec 16) : BitVec 16 :=
  let st1 := st &&& ~~~(mask &&& 0x01FE#16)
  if mask.getLsbD Flag.rxdrop.bit then withLastDrop st1 0x0 else st1

/-- EVQNE (R52). -/
def State.evqne (s : State) : Bool := decide (0 < s.evq.length)

/-- EVQFULL: |EVQ| = EVQ_DEPTH (R52). EVQ_DEPTH is at least 1, so an empty queue is never full; the law `evqfull_iff` is R52's
own form. -/
def State.evqfull (s : State) : Bool := s.evqne && decide (s.evq.length = evqDepth s.cfg)

/-- STATUS as the host reads it (R33, R34): bits 0, 9 and 10 computed, bit 11 zero. -/
def State.statusWord (s : State) : BitVec 16 :=
  (s.status &&& 0xF1FE#16) ||| ((BitVec.ofBool s.initDone).setWidth 16)
    ||| ((BitVec.ofBool s.evqne).setWidth 16 <<< 9) ||| ((BitVec.ofBool s.evqfull).setWidth 16 <<< 10)

/-- CTRL as written by a host byte and as read: bits 7:2 are 0 (R36, R263). -/
def ctrlBits (v : BitVec 8) : BitVec 8 := v &&& 0x03#8

/-- CTRL.RXCK_EN (R36). -/
def State.rxckEn (s : State) : Bool := s.ctrl.getLsbD 0

/-- CTRL.IRQ_EN (R36). -/
def State.irqEn (s : State) : Bool := s.ctrl.getLsbD 1

/-- The interrupt output (60_exceptions.md R284). -/
def State.irq (s : State) : Bool := s.irqEn && s.evqne

/-- The step sets a sticky flag. -/
def State.setFlag (s : State) (f : Flag) : State := { s with status := withFlag s.status f }

/-- The step sets a sticky flag if `b`. -/
def State.setFlagIf (s : State) (b : Bool) (f : Flag) : State := if b then s.setFlag f else s

end Sys2Proof.Machine
end

