-- ==== Sys2Proof/Machine/Operands.lean ====
section
/-! DEFINITION. Operand forms: the fields of an inbound frame (30_encoding.md R95 to R98), and the byte encodings of what
a response carries: result codes (R105), WARN (R106), tag-event records (R125), Tags (R120) and pending entries (R121). -/

namespace Sys2Proof.Machine

open Sys2Proof

/-- The pad byte of an event frame, at EVT_PAD_OFF (R95). -/
def eventPad (cfg : Cfg) (f : Frame) : Byte := f[cfg.evtPadOff]

/-- The device-side tag index of an event frame, byte 4 (R95). -/
def eventIdx (f : Frame) : Byte := f[4]

/-- The action byte of an event frame, byte 5 (R95). -/
def eventAction (f : Frame) : Byte := f[5]

/-- The uid of an event frame, bytes 6 to 12 (R95). -/
def eventUid (f : Frame) : Uid := bytesAt 7 f.toList 6

/-- The counter a reply frame answers, byte 3 (R98). -/
def replyCtr (f : Frame) : Byte := f[3]

/-- The enciphered block of a LIST-MODEL reply, bytes 4 to 11 (R98). -/
def replyBlock (f : Frame) : Block := bytesAt 8 f.toList 4

/-- PAD_CENTER (R97). -/
def padCenter : Byte := 0x01

/-- The pad address is one of the four of R97. -/
def knownPad (cfg : Cfg) (pad : Byte) : Bool :=
  pad == cfg.padLeft || pad == padCenter || pad == cfg.padRight || pad == cfg.padAll

/-- ACT_ADDED (R96). -/
def actAdded : Byte := 0x01

/-- The result codes (R105). -/
inductive Rc where
  | ok
  | illegalOp
  | operand
  | protocol
  | transport
  | notInit
  | alreadyInit
  | empty
  | badKind
deriving DecidableEq, Repr

/-- The byte of a result code (R105). -/
def Rc.byte : Rc → Byte
  | .ok => 0x00
  | .illegalOp => 0x80
  | .operand => 0x81
  | .protocol => 0x82
  | .transport => 0x83
  | .notInit => 0x84
  | .alreadyInit => 0x85
  | .empty => 0x86
  | .badKind => 0x87

/-- The WARN byte: bit 0 is PSM, the others 0 (R106). -/
def warnByte (psm : Bool) : Byte := if psm then 0x01 else 0x00

/-- The byte of a Bool. -/
def boolByte (b : Bool) : Byte := if b then 0x01 else 0x00

/-- The number of a tag kind (R40). -/
def TagKind.code : TagKind → Byte
  | .character => 1
  | .vehicle => 2

/-- The number of a stage (R38). -/
def Stage.code : Stage → Byte
  | .awaitRead => 0
  | .awaitModel => 1

/-- The record code of an action (R125). -/
def Action.code : Action → Byte
  | .added => 0x01
  | .removed => 0x02

/-- Byte 2 of a record: bit 0 RESOLVED, bits 2:1 KIND (R125). -/
def resolvedByte : Option Tag → Byte
  | none => 0x00
  | some t => 0x01 ||| (t.kind.code <<< 1)

/-- The id field of a record: 0 when unresolved (R125). -/
def tagId : Option Tag → Word
  | none => 0
  | some t => t.id

/-- RECORD(r), 16 bytes (R125). -/
def recordBytes (r : TagEvent) : List Byte :=
  [r.pad, r.action.code, resolvedByte r.tag, r.device] ++ r.uid.toList ++ le32Bytes (tagId r.tag) ++ [0x00]

/-- The data of a CACHE_LOOKUP response (R120, R230). -/
def lookupBytes : Option Tag → List Byte
  | none => [0x00, 0x00] ++ zeros 4
  | some t => [0x01, t.kind.code] ++ le32Bytes t.id

/-- The data of a PT_READ response (R121, R231). -/
def entryBytes (e : PtEntry) : List Byte :=
  if e.valid then [0x01, e.stage.code, e.pad, e.idx] ++ e.uid.toList else zeros 11

end Sys2Proof.Machine
end

