-- ==== Sys2Proof/Machine/Ops.lean ====
section
/-! DEFINITION. The named operations over the state: responding, dropping, Transmit and SEND (40_codec.md R144), the pending
table, the Tag Cache and the event queue (42_correlator.md R211 to R226), reset (70_reset_and_hazards.md R310) and the choice of
the next event (10_state.md R51, 60_exceptions.md R287). JTPC has no exception entry and no return from one (R288, R289): where
another machine takes an exception, JTPC ends the step by `State.respond` with a result code or by `State.dropFrame`. -/

namespace Sys2Proof.Machine

open Sys2Proof

/-- `respond(RC, WARN, data)` (00_scope.md R11): the response is [RC, WARN] ++ data (R104). -/
def State.respond (s : State) (rc : Rc) (warn : Byte) (data : List Byte) : State :=
  { s with responses := s.responses ++ [rc.byte :: warn :: data] }

/-- The refusal of a request by dispatch (43_control.md R259, R264, R265): no effect but the response. -/
def State.respondRejected (s : State) : DecodeError → State
  | .empty => s.respond .operand 0x00 []
  | .illegalOp => s.respond .illegalOp 0x00 []
  | .badLength => s.respond .operand 0x00 []
  | .notACommand => s.respond .badKind 0x00 [0x00]

/-- `drop(r)` (42_correlator.md R211). -/
def State.dropFrame (s : State) (r : DropReason) : State :=
  { s with status := withLastDrop (withFlag s.status .rxdrop) r.code }

/-- TX's answer to the next Transmit (10_state.md R50): the next one offered, or a free value (assumption log 4). -/
def State.nextTxAnswer (s : State) : TxResult :=
  match s.txAnswers with
  | a :: _ => a
  | [] => Config.freeTxAnswer s.draws

/-- `Transmit(f)` (R50): the frame and its outcome are what the transport observes; the answer is used up. -/
def State.transmit (s : State) (f : List Byte) : State :=
  { s with
    txLog := s.txLog ++ [(f, s.nextTxAnswer)]
    txAnswers := s.txAnswers.tail
    draws := if s.txAnswers.isEmpty then s.draws + 1 else s.draws }

/-- How a SEND ended (R144). -/
inductive SendStatus where
  | sent
  | lenErr
  | txFail
deriving DecidableEq, Repr

/-- What SEND returns, with the state it leaves. -/
structure SendResult where
  c : Byte
  st : SendStatus
  psm : Bool
  next : State
deriving DecidableEq, Repr

/-- The part of sending that SEND and TX_INIT share (R144, R150): record a mismatch, validate, transmit. -/
def State.transmitChecked (s : State) (f : List Byte) (psm : Bool) : SendStatus × State :=
  let s1 := s.setFlagIf psm .psm
  if validFrame f then
    match s1.nextTxAnswer with
    | .ok => (.sent, s1.transmit f)
    | .err => (.txFail, (s1.transmit f).setFlag .txerr)
  else (.lenErr, s1.setFlag .proto)

/-- SEND (R144): the frame carries CTR, and building it increments CTR whatever comes of it. -/
def State.send (s : State) (opc len : Byte) (pl : List Byte) : SendResult :=
  let psm := payloadMismatch len pl
  let r := State.transmitChecked { s with ctr := s.ctr + 1 } (assemble 0x55 opc len s.ctr pl) psm
  { c := s.ctr, st := r.1, psm := psm, next := r.2 }

/-- The result code of a host send by how SEND ended (R148, R149, R150). -/
def SendStatus.rc : SendStatus → Rc
  | .sent => .ok
  | .lenErr => .protocol
  | .txFail => .transport

/-- A host send after its checks: SEND, then the response with the counter (R148, R149). -/
def State.hostSend (s : State) (opc len : Byte) (pl : List Byte) : State :=
  let r := s.send opc len pl
  r.next.respond r.st.rc (warnByte r.psm) [r.c]

/-- A host request for catalog command `k` with payload `pl` (R148), its checks in the order of R285. -/
def State.hostCommand (s : State) (k : Nat) (pl : List Byte) : State :=
  if 0x0D < k ∨ k = 0x09 ∨ (catalogRow s.cfg k).present = false then s.respond .badKind 0x00 [0x00]
  else if s.initDone = false then s.respond .notInit 0x00 [0x00]
  else s.hostSend (catalogRow s.cfg k).opc (catalogRow s.cfg k).len pl

/-- The INIT frame (R150): counter forced to 1. -/
def initFrame (cfg : Cfg) : List Byte := commandFrame cfg 0x09 0x01 cfg.initPayload

/-- A host request to send the INIT frame (R150). -/
def State.hostInit (s : State) : State :=
  if s.initDone then s.respond .alreadyInit 0x00 []
  else
    let psm := payloadMismatch (catalogRow s.cfg 0x09).len s.cfg.initPayload
    let r := s.transmitChecked (initFrame s.cfg) psm
    match r.1 with
    | .sent => { r.2 with initDone := true }.respond .ok (warnByte psm) []
    | .lenErr => r.2.respond .protocol (warnByte psm) []
    | .txFail => r.2.respond .transport (warnByte psm) []

/-- PT[c] (R37). -/
def State.ptAt (s : State) (c : Byte) : PtEntry := s.pt[c.toNat]'c.isLt

/-- PT[c] <- e. -/
def State.setPt (s : State) (c : Byte) (e : PtEntry) : State := { s with pt := s.pt.set c.toNat e c.isLt }

/-- PT[c].valid <- 0 (R220, R221, R223). The entry's other fields are then unspecified and never read (R37, R38); that they
keep their values is the model's choice (DESIGN CHOICE, assumption log 10). -/
def State.clearPt (s : State) (c : Byte) : State := s.setPt c { s.ptAt c with valid := false }

/-- The uid as a number, its first byte most significant: the order TC is kept in (assumption log 16). -/
def uidKey (u : Uid) : Nat := u.toList.foldl (fun n b => n * 256 + b.toNat) 0

/-- TCLookup on a list of entries (R39). -/
def cacheFind : List (Uid × Tag) → Uid → Option Tag
  | [], _ => none
  | (u, t) :: rest, uid => if u = uid then some t else cacheFind rest uid

/-- The entries with one more, in the order of their uids. -/
def cacheAdd : List (Uid × Tag) → Uid → Tag → List (Uid × Tag)
  | [], uid, t => [(uid, t)]
  | (u, t0) :: rest, uid, t =>
    if uidKey uid < uidKey u then (uid, t) :: (u, t0) :: rest else (u, t0) :: cacheAdd rest uid t

/-- TCLookup(uid). -/
def State.tcLookup (s : State) (uid : Uid) : Option Tag := cacheFind s.tc uid

/-- TCInsert (R225): the first insertion wins, and a full cache takes nothing. -/
def State.tcInsert (s : State) (uid : Uid) (t : Tag) : State :=
  match s.tcLookup uid with
  | some _ => s
  | none => if cacheFull s.cfg s.tc.length then s.setFlag .tcfull else { s with tc := cacheAdd s.tc uid t }

/-- PUSH (R226). -/
def State.push (s : State) (pad : Byte) (action : Action) (uid : Uid) (t : Option Tag) : State :=
  { s with evq := s.evq ++ [{ pad := pad, action := action, tag := t, device := s.cfg.deviceIndex, uid := uid }] }

/-- FOLLOWUP (R224): send, then register under the counter the frame carried. `e` is the entry without its valid bit. -/
def State.followup (s : State) (k : Nat) (pl : List Byte) (e : PtEntry) : State :=
  let r := s.send (catalogRow s.cfg k).opc (catalogRow s.cfg k).len pl
  match r.st with
  | .sent => (r.next.setFlagIf (r.next.ptAt r.c).valid .ptcoll).setPt r.c { e with valid := true }
  | .lenErr => r.next.setFlag .futxerr
  | .txFail => r.next.setFlag .futxerr

/-- PRECHECK and, if it drops nothing, `body` (R212). -/
def State.afterPrecheck (s : State) (f : Frame) (body : State → State) : State :=
  if s.initDone = false then s.dropFrame .notInit
  else if s.rxckEn && !(verify f).1 then (s.setFlag .rxcksum).dropFrame .cksum
  else body s

/-- MATCH(c, want) and, if it drops nothing, `body` on the entry (R219). -/
def State.afterMatch (s : State) (c : Byte) (want : Stage) (body : PtEntry → State → State) : State :=
  if (s.ptAt c).valid = false then s.dropFrame .noPending
  else if (s.ptAt c).stage ≠ want then s.dropFrame .stage
  else body (s.ptAt c) s

/-- An identification ends (R220, R223): clear its entry, cache the Tag, deliver the event. -/
def State.resolve (s : State) (c : Byte) (e : PtEntry) (t : Tag) : State :=
  ((s.clearPt c).tcInsert e.uid t).push e.pad .added e.uid (some t)

/-- The reset input takes effect (R310, R311): every piece of JTPC state goes to its reset value, the outstanding request
is gone without a response, and what is outside JTPC stays. -/
def State.resetCore (s : State) : State :=
  { State.reset with
    cfg := s.cfg
    hostq := s.hostq.tail
    rxq := s.rxq
    txAnswers := s.txAnswers
    turns := s.turns
    draws := s.draws
    responses := s.responses
    txLog := s.txLog }

/-- What the next step of CORE processes (R48, R310). -/
inductive Event where
  | reset
  | idle
  | host (item : HostItem)
  | frame (f : Frame)
deriving DecidableEq, Repr

/-- An RxStep may be taken as far as EVQ is concerned: |EVQ| < EVQ_DEPTH (R51). EVQ_DEPTH is at least 1, so an empty queue
has room; the law `evqRoom_iff` is R51's own form. -/
def State.evqRoom (s : State) : Bool := s.evq.isEmpty || decide (s.evq.length < evqDepth s.cfg)

/-- The choice when both kinds of step are enabled (R287): the next one offered, or a free value (assumption log 5). -/
def State.nextTurn (s : State) : Turn :=
  match s.turns with
  | t :: _ => t
  | [] => Config.freeTurn s.draws

/-- The choice is used up. -/
def State.useTurn (s : State) : State :=
  { s with turns := s.turns.tail, draws := if s.turns.isEmpty then s.draws + 1 else s.draws }

/-- The event the next step processes, and the state with it taken from its agent (R51, R287, R310). With nothing
outstanding and no enabled frame JTPC is quiescent and keeps its state (R295, R324). -/
def State.nextEvent (s : State) : Event × State :=
  if s.rst then (.reset, s)
  else
    match s.hostq, s.rxq, s.evqRoom with
    | [], [], _ => (.idle, s)
    | [], _ :: _, false => (.idle, s)
    | [], f :: fs, true => (.frame f, { s with rxq := fs })
    | h :: hs, [], _ => (.host h, { s with hostq := hs })
    | h :: hs, _ :: _, false => (.host h, { s with hostq := hs })
    | h :: hs, f :: fs, true =>
      match s.nextTurn with
      | .host => (.host h, { s.useTurn with hostq := hs })
      | .rx => (.frame f, { s.useTurn with rxq := fs })

end Sys2Proof.Machine
end

