-- ==== Sys2Proof/Machine/CipherOps.lean ====
section
/-! DEFINITION. The meanings of the Tag Cipher's host operations (41_cipher.md R188 to R191). -/

namespace Sys2Proof.Machine

open Sys2Proof

/-- TEA_ENCIPHER (R188). -/
def execTeaEncipher (v0 v1 : Word) (s : State) : Host.Outcome State Fault Refusal :=
  let w := encipher (v0, v1)
  .next (s.respond .ok 0x00 (le32Bytes w.1 ++ le32Bytes w.2))

/-- TEA_DECIPHER (R189). -/
def execTeaDecipher (v0 v1 : Word) (s : State) : Host.Outcome State Fault Refusal :=
  let w := decipher (v0, v1)
  .next (s.respond .ok 0x00 (le32Bytes w.1 ++ le32Bytes w.2))

/-- TEA_ENCODE (R190). -/
def execTeaEncode (b : Block) (s : State) : Host.Outcome State Fault Refusal :=
  .next (s.respond .ok 0x00 (encodeBlock b).toList)

/-- TEA_DECODE (R191). -/
def execTeaDecode (b : Block) (s : State) : Host.Outcome State Fault Refusal :=
  .next (s.respond .ok 0x00 (decodeBlock b).toList)

end Sys2Proof.Machine
end

