-- ==== Sys2Proof/Machine/CodecOps.lean ====
section
/-! DEFINITION. The meanings of the Frame Codec's host operations (40_codec.md R145 to R150). -/

namespace Sys2Proof.Machine

open Sys2Proof

/-- FRM_CHECKSUM (R145): E_OPERAND when the position is over 32. -/
def execFrmChecksum (p : Byte) (f : Frame) (s : State) : Host.Outcome State Fault Refusal :=
  .next (if 32 < p.toNat then s.respond .operand 0x00 [] else s.respond .ok 0x00 [checksum f.toList p.toNat])

/-- FRM_VERIFY (R146). -/
def execFrmVerify (f : Frame) (s : State) : Host.Outcome State Fault Refusal :=
  .next (s.respond .ok 0x00 [boolByte (verify f).1, (verify f).2])

/-- FRM_ASSEMBLE (R147): the mismatch shows in WARN only. -/
def execFrmAssemble (pfx opc len c : Byte) (pl : List Byte) (s : State) : Host.Outcome State Fault Refusal :=
  let b := assemble pfx opc len c pl
  .next (s.respond (if validFrame b then .ok else .protocol) (warnByte (payloadMismatch len pl))
    (le16Bytes (BitVec.ofNat 16 b.length) ++ b))

/-- TX_COMMAND (R148). -/
def execTxCommand (k : Byte) (pl : List Byte) (s : State) : Host.Outcome State Fault Refusal :=
  .next (s.hostCommand k.toNat pl)

/-- TX_RAW (R149). -/
def execTxRaw (opc len : Byte) (pl : List Byte) (s : State) : Host.Outcome State Fault Refusal :=
  .next (if s.initDone = false then s.respond .notInit 0x00 [0x00] else s.hostSend opc len pl)

/-- TX_INIT (R150). -/
def execTxInit (s : State) : Host.Outcome State Fault Refusal :=
  .next s.hostInit

end Sys2Proof.Machine
end

