-- ==== Sys2Proof/Machine/Control.lean ====
section
/-! DEFINITION. The meanings of the control operations (43_control.md R260 to R263). -/

namespace Sys2Proof.Machine

open Sys2Proof

/-- NOP (R260). -/
def execNop (s : State) : Host.Outcome State Fault Refusal :=
  .next (s.respond .ok 0x00 [])

/-- TCCOUNT: the number of cached tags, saturating (R122, R261). -/
def State.tcCount (s : State) : BitVec 16 := BitVec.ofNat 16 (min s.tc.length 0xFFFF)

/-- The data of a STATUS_READ response (R122, R261). -/
def State.statusBytes (s : State) : List Byte :=
  le16Bytes s.statusWord ++ [ctrlBits s.ctrl, s.ctr, BitVec.ofNat 8 s.evq.length] ++ le16Bytes s.tcCount

/-- STATUS_READ (R261). -/
def execStatusRead (s : State) : Host.Outcome State Fault Refusal :=
  .next (s.respond .ok 0x00 s.statusBytes)

/-- STATUS_CLEAR (R262). -/
def execStatusClear (mask : BitVec 16) (s : State) : Host.Outcome State Fault Refusal :=
  .next ({ s with status := clearedStatus s.status mask }.respond .ok 0x00 [])

/-- CTRL_WRITE (R263). -/
def execCtrlWrite (v : Byte) (s : State) : Host.Outcome State Fault Refusal :=
  .next ({ s with ctrl := ctrlBits v }.respond .ok 0x00 [])

end Sys2Proof.Machine
end

