-- ==== Sys2Proof/Machine/Correlator.lean ====
section
/-! DEFINITION. The Event Correlator: the meanings of the five classes of inbound frame (42_correlator.md R210 to R223) and of
the host operations that read its tables (R229 to R231). -/

namespace Sys2Proof.Machine

open Sys2Proof

/-- EVENT_ADDED (R215, R216): a cached uid is reported at once, another starts an identification by a READ. -/
def State.eventAdded (s : State) (pad idx : Byte) (uid : Uid) : State :=
  match s.tcLookup uid with
  | some t => s.push pad .added uid (some t)
  | none =>
    s.followup 0x07 (readPayload s.cfg idx) { valid := true, stage := .awaitRead, pad := pad, idx := idx, uid := uid }

/-- EVENT_REMOVED (R217). -/
def State.eventRemoved (s : State) (pad : Byte) (uid : Uid) : State :=
  s.push pad .removed uid (s.tcLookup uid)

/-- RX_EVENT (R214): the pad is tested before the action. -/
def State.rxEvent (s : State) (f : Frame) : State :=
  if knownPad s.cfg (eventPad s.cfg f) = false then s.dropFrame .badPad
  else if eventAction f = actAdded then s.eventAdded (eventPad s.cfg f) (eventIdx f) (eventUid f)
  else if eventAction f = s.cfg.actRemoved then s.eventRemoved (eventPad s.cfg f) (eventUid f)
  else s.dropFrame .badAction

/-- READ_REPLY on its entry (R220 to R222): a vehicle is resolved, a character needs a LIST-MODEL whose payload is the
enciphered index, and an unknown discriminator leaves the entry waiting. -/
def State.readReply (f : Frame) (e : PtEntry) (s : State) : State :=
  match classify s.cfg f with
  | .vehicle => s.resolve (replyCtr f) e { kind := .vehicle, id := (vehicleId s.cfg f).setWidth 32 }
  | .character =>
    (s.clearPt (replyCtr f)).followup 0x08 (encodeBlock (lmPlain s.cfg e.idx)).toList
      { valid := true, stage := .awaitModel, pad := e.pad, idx := e.idx, uid := e.uid }
  | .unknown => s.dropFrame .badDisc

/-- MODEL_REPLY on its entry (R223). -/
def State.modelReply (f : Frame) (e : PtEntry) (s : State) : State :=
  s.resolve (replyCtr f) e { kind := .character, id := charId s.cfg (decodeBlock (replyBlock f)) }

/-- The RxStep of an event frame (R212, R214). -/
def execRxEvent (f : Frame) (s : State) : Host.Outcome State Fault Refusal :=
  .next (s.afterPrecheck f fun s => s.rxEvent f)

/-- The RxStep of a READ reply (R212, R218 to R222). -/
def execRxReadReply (f : Frame) (s : State) : Host.Outcome State Fault Refusal :=
  .next (s.afterPrecheck f fun s => s.afterMatch (replyCtr f) .awaitRead (State.readReply f))

/-- The RxStep of a LIST-MODEL reply (R212, R218, R219, R223). -/
def execRxModelReply (f : Frame) (s : State) : Host.Outcome State Fault Refusal :=
  .next (s.afterPrecheck f fun s => s.afterMatch (replyCtr f) .awaitModel (State.modelReply f))

/-- The RxStep of a reply with another marker (R212, R218). -/
def execRxBadMarker (f : Frame) (s : State) : Host.Outcome State Fault Refusal :=
  .next (s.afterPrecheck f fun s => s.dropFrame .badMarker)

/-- The RxStep of a frame with another first byte (R212, R213). -/
def execRxBadPrefix (f : Frame) (s : State) : Host.Outcome State Fault Refusal :=
  .next (s.afterPrecheck f fun s => s.dropFrame .badPrefix)

/-- EVT_POP (R229). -/
def execEvtPop (s : State) : Host.Outcome State Fault Refusal :=
  match s.evq with
  | [] => .next (s.respond .empty 0x00 (zeros 16))
  | r :: rest => .next ({ s with evq := rest }.respond .ok 0x00 (recordBytes r))

/-- CACHE_LOOKUP (R230). -/
def execCacheLookup (uid : Uid) (s : State) : Host.Outcome State Fault Refusal :=
  .next (s.respond .ok 0x00 (lookupBytes (s.tcLookup uid)))

/-- PT_READ (R231). -/
def execPtRead (c : Byte) (s : State) : Host.Outcome State Fault Refusal :=
  .next (s.respond .ok 0x00 (entryBytes (s.ptAt c)))

end Sys2Proof.Machine
end

