-- ==== Sys2Proof/Machine/Wire.lean ====
section
/-! DEFINITION. The meanings of the 14 wire commands, the rows of CATALOG (30_encoding.md R100). Running a wire command is the
host's step that puts that row on the wire (assumption log 11): the checks, the SEND with the row's opcode and length and
the response of 40_codec.md R148, and for the INIT row those of R150. The correlator's own READ and LIST-MODEL commands
are sent inside an RxStep (42_correlator.md R216, R221) by the same SEND. -/

namespace Sys2Proof.Machine

open Sys2Proof

/-- WIRE_SWITCH_PAD: switch single pad, payload [pad, r, g, b] (R101). -/
def execWireSwitchPad (pad r g b : Byte) (s : State) : Host.Outcome State Fault Refusal :=
  .next (s.hostCommand 0x00 [pad, r, g, b])

/-- WIRE_FADE_PAD: fade single pad (R100). -/
def execWireFadePad (pl : List Byte) (s : State) : Host.Outcome State Fault Refusal :=
  .next (s.hostCommand 0x01 pl)

/-- WIRE_FLASH_PAD: flash single pad (R100). -/
def execWireFlashPad (pl : List Byte) (s : State) : Host.Outcome State Fault Refusal :=
  .next (s.hostCommand 0x02 pl)

/-- WIRE_SWITCH_PADS: switch all pads (R100). -/
def execWireSwitchPads (pl : List Byte) (s : State) : Host.Outcome State Fault Refusal :=
  .next (s.hostCommand 0x03 pl)

/-- WIRE_FADE_PADS: fade all pads (R100). -/
def execWireFadePads (pl : List Byte) (s : State) : Host.Outcome State Fault Refusal :=
  .next (s.hostCommand 0x04 pl)

/-- WIRE_FLASH_PADS: flash all pads (R100). -/
def execWireFlashPads (pl : List Byte) (s : State) : Host.Outcome State Fault Refusal :=
  .next (s.hostCommand 0x05 pl)

/-- WIRE_FADE_RANDOM: `fadePadRandom` (R100). -/
def execWireFadeRandom (pl : List Byte) (s : State) : Host.Outcome State Fault Refusal :=
  .next (s.hostCommand 0x06 pl)

/-- WIRE_READ: read (R100). -/
def execWireRead (pl : List Byte) (s : State) : Host.Outcome State Fault Refusal :=
  .next (s.hostCommand 0x07 pl)

/-- WIRE_LIST_MODEL: list-model (R100). -/
def execWireListModel (pl : List Byte) (s : State) : Host.Outcome State Fault Refusal :=
  .next (s.hostCommand 0x08 pl)

/-- WIRE_INIT: init, its payload INIT_PAYLOAD and its counter 1 (R100, R150). -/
def execWireInit (s : State) : Host.Outcome State Fault Refusal :=
  .next s.hostInit

/-- WIRE_SEED: seed (R100). -/
def execWireSeed (pl : List Byte) (s : State) : Host.Outcome State Fault Refusal :=
  .next (s.hostCommand 0x0A pl)

/-- WIRE_CHALLENGE: challenge (R100). -/
def execWireChallenge (pl : List Byte) (s : State) : Host.Outcome State Fault Refusal :=
  .next (s.hostCommand 0x0B pl)

/-- WIRE_UNNAMED_0C: the row without a name, kind 0x0C (R100). -/
def execWireUnnamed0C (pl : List Byte) (s : State) : Host.Outcome State Fault Refusal :=
  .next (s.hostCommand 0x0C pl)

/-- WIRE_UNNAMED_0D: the row without a name, kind 0x0D (R100). -/
def execWireUnnamed0D (pl : List Byte) (s : State) : Host.Outcome State Fault Refusal :=
  .next (s.hostCommand 0x0D pl)

end Sys2Proof.Machine
end

