-- ==== Sys2Proof/Machine/Dispatch.lean ====
section
/-! DEFINITION. The dispatch: one arm per instruction, each one call of its meaning. -/

namespace Sys2Proof.Machine

open Sys2Proof

def exec (i : Instr) (s : State) : Host.Outcome State Fault Refusal :=
  match i with
  | .nop => Sys2Proof.Machine.execNop s
  | .teaEncipher v0 v1 => Sys2Proof.Machine.execTeaEncipher v0 v1 s
  | .teaDecipher v0 v1 => Sys2Proof.Machine.execTeaDecipher v0 v1 s
  | .teaEncode b => Sys2Proof.Machine.execTeaEncode b s
  | .teaDecode b => Sys2Proof.Machine.execTeaDecode b s
  | .frmChecksum p f => Sys2Proof.Machine.execFrmChecksum p f s
  | .frmVerify f => Sys2Proof.Machine.execFrmVerify f s
  | .frmAssemble pfx opc len c pl => Sys2Proof.Machine.execFrmAssemble pfx opc len c pl s
  | .txCommand k pl => Sys2Proof.Machine.execTxCommand k pl s
  | .txRaw opc len pl => Sys2Proof.Machine.execTxRaw opc len pl s
  | .txInit => Sys2Proof.Machine.execTxInit s
  | .evtPop => Sys2Proof.Machine.execEvtPop s
  | .cacheLookup uid => Sys2Proof.Machine.execCacheLookup uid s
  | .ptRead c => Sys2Proof.Machine.execPtRead c s
  | .statusRead => Sys2Proof.Machine.execStatusRead s
  | .statusClear mask => Sys2Proof.Machine.execStatusClear mask s
  | .ctrlWrite v => Sys2Proof.Machine.execCtrlWrite v s
  | .rxEvent f => Sys2Proof.Machine.execRxEvent f s
  | .rxReadReply f => Sys2Proof.Machine.execRxReadReply f s
  | .rxModelReply f => Sys2Proof.Machine.execRxModelReply f s
  | .rxBadMarker f => Sys2Proof.Machine.execRxBadMarker f s
  | .rxBadPrefix f => Sys2Proof.Machine.execRxBadPrefix f s
  | .wireSwitchPad pad r g b => Sys2Proof.Machine.execWireSwitchPad pad r g b s
  | .wireFadePad pl => Sys2Proof.Machine.execWireFadePad pl s
  | .wireFlashPad pl => Sys2Proof.Machine.execWireFlashPad pl s
  | .wireSwitchPads pl => Sys2Proof.Machine.execWireSwitchPads pl s
  | .wireFadePads pl => Sys2Proof.Machine.execWireFadePads pl s
  | .wireFlashPads pl => Sys2Proof.Machine.execWireFlashPads pl s
  | .wireFadeRandom pl => Sys2Proof.Machine.execWireFadeRandom pl s
  | .wireRead pl => Sys2Proof.Machine.execWireRead pl s
  | .wireListModel pl => Sys2Proof.Machine.execWireListModel pl s
  | .wireInit => Sys2Proof.Machine.execWireInit s
  | .wireSeed pl => Sys2Proof.Machine.execWireSeed pl s
  | .wireChallenge pl => Sys2Proof.Machine.execWireChallenge pl s
  | .wireUnnamed0C pl => Sys2Proof.Machine.execWireUnnamed0C pl s
  | .wireUnnamed0D pl => Sys2Proof.Machine.execWireUnnamed0D pl s

end Sys2Proof.Machine
end

