-- ==== Sys2Proof/Machine/Step.lean ====
section
/-! DEFINITION. One step of CORE (10_state.md R48): the reset, a HostStep with the dispatch of 43_control.md R259, an RxStep
(42_correlator.md R210), or nothing when JTPC is quiescent; and placing one instruction where the next step fetches it. -/

namespace Sys2Proof.Machine

open Sys2Proof

/-- A step: take the next event from its agent, decode it and run it. -/
def step (s : State) : Host.Outcome State Fault Refusal :=
  match s.nextEvent with
  | (.reset, t) => .next t.resetCore
  | (.idle, t) => .next t
  | (.host (.request b), t) =>
    match decodeRequest b with
    | .ok i => exec i t
    | .rejected e => .next (t.respondRejected e)
  | (.host (.command f), t) =>
    match decodeCommand t.cfg f.toList with
    | .ok i => exec i t
    | .rejected _ => .refused .notACommandFrame
  | (.frame f, t) => exec (decodeFrame f) t

/-- The words of `c` put first where its port's agent offers them, with the reset input released, room in EVQ for an
RxStep, and the choice between the two kinds of step drawn for it where both are enabled. -/
def State.withCode (s : State) (c : Code) : State :=
  match c with
  | .host h =>
    { s with
      hostq := h :: s.hostq
      rst := false
      turns := if s.rxq.isEmpty || !s.evqRoom then s.turns else .host :: s.turns }
  | .rx f =>
    { s with
      rxq := f :: s.rxq
      rst := false
      evq := if s.evqRoom then s.evq else s.evq.take s.cfg.evqDepthPred.val
      turns := if s.hostq.isEmpty then s.turns else .rx :: s.turns }

/-- `s` with the instruction that the opcode table describes with `w` placed for the next step (assumption log 12, 15). -/
def State.withFetchWord (s : State) (nbits w : Nat) : State := s.withCode (tableCode s.cfg nbits w)

end Sys2Proof.Machine
end

