-- ==== Sys2Proof/Safety.lean ====
section
/-! DEFINITION. The terms claims are stated in: the state tuple and what lies outside it, the frame property of
40_codec.md R151, the invariant of the machine, and the refusal of requests of a wrong length. -/

namespace Sys2Proof.Machine

open Sys2Proof

/-- The state tuple of one instance (10_state.md R30). -/
abbrev State.tuple (s : State) :=
  (s.ctr, s.initDone, s.status, s.ctrl, s.pt, s.tc, s.evq)

/-- The registers of the tuple that only few steps write, with the configuration. -/
abbrev State.registers (s : State) := (s.ctr, s.initDone, s.ctrl, s.cfg)

/-- What the agents offer and what a program observes (R46, R55). -/
abbrev State.outside (s : State) :=
  (s.hostq, s.rxq, s.rst, s.txAnswers, s.turns, s.draws, s.responses, s.txLog)

/-- The frame property (R151) of a byte string: 32 bytes, prefix 0x55, and for some payload length n the byte at 4 + n is
the checksum of the bytes before it and every later byte is 0. -/
structure FrameOk (b : List Byte) : Prop where
  size : b.length = 32
  first : b.getD 0 0 = 0x55
  sum : ∃ n, n ≤ 27 ∧ b.getD (4 + n) 0 = checksum b (4 + n) ∧ ∀ i, 5 + n ≤ i → b.getD i 0 = 0

/-- TC's canonical form: strictly rising by uid, so that no uid stands twice (assumption log 16). -/
abbrev cacheSorted (tc : List (Uid × Tag)) : Prop := tc.Pairwise fun a b => uidKey a.1 < uidKey b.1

/-- What every step keeps. -/
structure State.Inv (s : State) : Prop where
  /-- The configuration meets the constraints of R7 (assumption log 3). -/
  config : s.cfg.wf = true
  /-- EVQ holds at most EVQ_DEPTH records (R41). -/
  queue : s.evq.length ≤ evqDepth s.cfg
  /-- Every record carries this instance's DEVICE_INDEX (R42). -/
  device : ∀ r ∈ s.evq, r.device = s.cfg.deviceIndex
  /-- TC has its canonical form. -/
  cacheOrder : cacheSorted s.tc
  /-- TC holds at most TC_CAPACITY entries (R39). -/
  cacheSize : ∀ n, s.cfg.tcCapacity = some n → s.tc.length ≤ n
  /-- The bits of STATUS that are computed or reserved are not stored (R34). -/
  statusReserved : s.status &&& 0x0E01#16 = 0
  /-- LAST_DROP holds no reserved code (R35). -/
  lastDropCode : (lastDropOf s.status).toNat ≤ 9
  /-- LAST_DROP is NONE exactly while RXDROP is 0 (R34, R211). -/
  lastDropFlag : flagOf s.status .rxdrop = true ↔ lastDropOf s.status ≠ 0
  /-- CTRL bits 7:2 are 0 (R36). -/
  ctrlReserved : s.ctrl &&& 0xFC#8 = 0
  /-- Every frame passed to Transmit has the frame property (R151). -/
  frames : ∀ x ∈ s.txLog, FrameOk x.1
  /-- Before INIT nothing was sent, identified or queued (R312, R313). -/
  beforeInit : s.initDone = false → s.ctr = 0x02 ∧ s.tc = [] ∧ s.evq = [] ∧ ∀ c, (s.ptAt c).valid = false

/-- A request with operation code `op` whose length is not `len` of it is answered E_OPERAND and has no other effect
(43_control.md R265). -/
def RefusesLength (op : Byte) (len : List Byte → Nat) : Prop :=
  ∀ (s t : State) (rest : List Byte), s.nextEvent = (.host (.request (op :: rest)), t) →
    (op :: rest).length ≠ len (op :: rest) →
    step s = .next { t with responses := t.responses ++ [[0x81, 0x00]] }

/-- The instructions whose step can execute SEND (40_codec.md R144): host commands, and the two inbound frames that can start a
follow-up. -/
def sends : Instr → Bool
  | .txCommand _ _ | .txRaw _ _ _ | .rxEvent _ | .rxReadReply _ => true
  | .wireSwitchPad _ _ _ _ | .wireFadePad _ | .wireFlashPad _ | .wireSwitchPads _ | .wireFadePads _ => true
  | .wireFlashPads _ | .wireFadeRandom _ | .wireRead _ | .wireListModel _ | .wireSeed _ | .wireChallenge _ => true
  | .wireUnnamed0C _ | .wireUnnamed0D _ => true
  | .nop | .teaEncipher _ _ | .teaDecipher _ _ | .teaEncode _ | .teaDecode _ | .frmChecksum _ _ | .frmVerify _ => false
  | .frmAssemble _ _ _ _ _ | .txInit | .evtPop | .cacheLookup _ | .ptRead _ | .statusRead | .statusClear _ => false
  | .ctrlWrite _ | .rxModelReply _ | .rxBadMarker _ | .rxBadPrefix _ | .wireInit => false

/-- The five classes of inbound frame (30_encoding.md R126). -/
def inbound : Instr → Bool
  | .rxEvent _ | .rxReadReply _ | .rxModelReply _ | .rxBadMarker _ | .rxBadPrefix _ => true
  | .nop | .teaEncipher _ _ | .teaDecipher _ _ | .teaEncode _ | .teaDecode _ | .frmChecksum _ _ | .frmVerify _ => false
  | .frmAssemble _ _ _ _ _ | .txCommand _ _ | .txRaw _ _ _ | .txInit | .evtPop | .cacheLookup _ | .ptRead _ => false
  | .statusRead | .statusClear _ | .ctrlWrite _ | .wireInit => false
  | .wireSwitchPad _ _ _ _ | .wireFadePad _ | .wireFlashPad _ | .wireSwitchPads _ | .wireFadePads _ => false
  | .wireFlashPads _ | .wireFadeRandom _ | .wireRead _ | .wireListModel _ | .wireSeed _ | .wireChallenge _ => false
  | .wireUnnamed0C _ | .wireUnnamed0D _ => false

end Sys2Proof.Machine
end

