-- ==== Sys2Proof/Certificates/Slice0/Obligations.lean ====
section
/-! DEFINITION. The statements for the provers, in the terms of Sys2Proof/Safety.lean. -/

open Sys2Proof Sys2Proof.Machine

-- Reset and the step

/-- R311: what an asserted reset input sets in one step (the input is the flag `rst`: assumption log 9). -/
def Obligations.ResetSetsEveryPieceOfState : Prop :=
  ∀ s : State, s.rst = true → ∃ t, step s = .next t ∧
    t.ctr = 0x02 ∧ t.initDone = false ∧ t.status = 0 ∧ t.statusWord = 0 ∧ t.ctrl = 0 ∧
    (∀ c, (t.ptAt c).valid = false ∧ entryBytes (t.ptAt c) = zeros 11) ∧
    t.tc = [] ∧ t.evq = [] ∧ t.irq = false ∧ t.cfg = s.cfg

/-- R310: reset cancels nothing outside JTPC, and the outstanding request gets no response. That the reset input is a flag of the
state and the outstanding request the head of a list is the model's (assumption log 6, 9). -/
def Obligations.ResetLeavesTheOutside : Prop :=
  ∀ s : State, s.rst = true → ∃ t, step s = .next t ∧
    t.rxq = s.rxq ∧ t.hostq = s.hostq.tail ∧ t.responses = s.responses ∧ t.txLog = s.txLog

/-- R311: the state right after reset. -/
def Obligations.ResetStateValues : Prop :=
  State.reset.ctr = 0x02 ∧ State.reset.initDone = false ∧ State.reset.statusWord = 0 ∧ State.reset.ctrl = 0 ∧
  (∀ c, (State.reset.ptAt c).valid = false) ∧ State.reset.tc = [] ∧ State.reset.evq = [] ∧ State.reset.irq = false

/-- A step with an outstanding request runs the instruction its bytes decode to, on the state without that request: where no
frame is enabled, and where one is and the draw is HOST's (R48, R51, R287). How requests and draws stand in the state is the
model's (assumption log 5, 6), and so is the command port of the second clause (assumption log 11). -/
def Obligations.StepRunsTheDecodedRequest : Prop :=
  (∀ (s : State) (b : List Byte) (hs : List HostItem) (i : Instr),
    s.rst = false → s.hostq = .request b :: hs → decodeRequest b = .ok i →
    ((s.rxq = [] ∨ evqDepth s.cfg ≤ s.evq.length) → step s = exec i { s with hostq := hs }) ∧
    (s.rxq ≠ [] → s.evq.length < evqDepth s.cfg → s.nextTurn = .host →
      step s = exec i { s.useTurn with hostq := hs })) ∧
  (∀ (s : State) (f : Frame) (hs : List HostItem) (i : Instr),
    s.rst = false → s.hostq = .command f :: hs → decodeCommand s.cfg f.toList = .ok i →
    ((s.rxq = [] ∨ evqDepth s.cfg ≤ s.evq.length) → step s = exec i { s with hostq := hs }) ∧
    (s.rxq ≠ [] → s.evq.length < evqDepth s.cfg → s.nextTurn = .host →
      step s = exec i { s.useTurn with hostq := hs }))

/-- A step with an offered frame and room in EVQ runs the frame's class, on the state without that frame: where no request is
outstanding, and where one is and the draw is RX's (R48, R51, R287). How frames and draws stand in the state is the model's
(assumption log 5, 6). -/
def Obligations.StepRunsTheClassifiedFrame : Prop :=
  ∀ (s : State) (f : Frame) (fs : List Frame),
    s.rst = false → s.rxq = f :: fs → s.evq.length < evqDepth s.cfg →
    (s.hostq = [] → step s = exec (decodeFrame f) { s with rxq := fs }) ∧
    (s.hostq ≠ [] → s.nextTurn = .rx → step s = exec (decodeFrame f) { s.useTurn with rxq := fs })

/-- R316: while EVQ is full no frame is taken. R324: with no request outstanding, and no frame offered or EVQ full, a step
leaves the state as it is (that a step is taken then at all is the model's, assumption log 8). -/
def Obligations.FullQueueHoldsFrames : Prop :=
  (∀ s t : State, s.rst = false → evqDepth s.cfg ≤ s.evq.length → step s = .next t → t.rxq = s.rxq) ∧
  (∀ s : State, s.rst = false → s.hostq = [] → (s.rxq = [] ∨ evqDepth s.cfg ≤ s.evq.length) → step s = .next s)

/-- R264 and R265: an unassigned OP, an empty request, a request of another length than R128 gives and a FRM_CHECKSUM
position over 32 are answered, and nothing else happens. -/
def Obligations.RefusedRequestsOnlyAnswer : Prop :=
  (∀ (s t : State), s.nextEvent = (.host (.request []), t) →
    step s = .next { t with responses := t.responses ++ [[0x81, 0x00]] }) ∧
  (∀ (s t : State) (op : Byte) (rest : List Byte), s.nextEvent = (.host (.request (op :: rest)), t) →
    op ∉ [0x00, 0x01, 0x02, 0x03, 0x04, 0x10, 0x11, 0x12, 0x13, 0x14, 0x15, 0x20, 0x21, 0x22, 0x30, 0x31, (0x32 : Byte)] →
    step s = .next { t with responses := t.responses ++ [[0x80, 0x00]] }) ∧
  (∀ op ∈ [0x00, 0x15, 0x20, (0x30 : Byte)], RefusesLength op fun _ => 1) ∧
  (∀ op ∈ [0x22, (0x32 : Byte)], RefusesLength op fun _ => 2) ∧
  RefusesLength 0x31 (fun _ => 3) ∧ RefusesLength 0x21 (fun _ => 8) ∧
  (∀ op ∈ [0x01, 0x02, 0x03, (0x04 : Byte)], RefusesLength op fun _ => 9) ∧
  RefusesLength 0x11 (fun _ => 33) ∧ RefusesLength 0x10 (fun _ => 34) ∧
  RefusesLength 0x13 (fun req => 3 + (req.getD 2 0).toNat) ∧
  RefusesLength 0x14 (fun req => 4 + (req.getD 3 0).toNat) ∧
  RefusesLength 0x12 (fun req => 6 + (req.getD 5 0).toNat) ∧
  (∀ (s : State) (p : Byte) (f : Frame), 32 < p.toNat →
    exec (.frmChecksum p f) s = .next { s with responses := s.responses ++ [[0x81, 0x00]] })

-- Encodings

/-- R126: the class of every inbound frame. -/
def Obligations.FramesAreClassifiedInOrder : Prop :=
  ∀ f : Frame,
    (f[0] = 0x56 → decodeFrame f = .rxEvent f) ∧
    (f[0] = 0x55 → f[2] = 0x12 → decodeFrame f = .rxReadReply f) ∧
    (f[0] = 0x55 → f[2] = 0x0A → decodeFrame f = .rxModelReply f) ∧
    (f[0] = 0x55 → f[2] ≠ 0x12 → f[2] ≠ 0x0A → decodeFrame f = .rxBadMarker f) ∧
    (f[0] ≠ 0x55 → f[0] ≠ 0x56 → decodeFrame f = .rxBadPrefix f)

/-- Decoding an encoded well-formed instruction gives it back, every operand at every value (R107 to R124, R126, R91, R100;
the words of a wire command are assumption log 11). -/
def Obligations.DecodeUndoesEncode : Prop :=
  ∀ (cfg : Cfg) (i : Instr), i.wf cfg = true → decode cfg (encode cfg i) = .ok i

/-- Every request the decoder accepts is the encoding of the well-formed instruction it gives: no two requests have one
meaning (R103, R107 to R124, R128). -/
def Obligations.AcceptedRequestsAreEncodings : Prop :=
  ∀ (cfg : Cfg) (b : List Byte) (i : Instr), decodeRequest b = .ok i →
    i.wf cfg = true ∧ encode cfg i = .host (.request b)

/-- Words written out in the spec decode to what they stand for (R129, 95_test_vectors.md). -/
def Obligations.SpecWordsDecode : Prop :=
  decodeRequest [0x13, 0x00, 0x04, 0x01, 0xFF, 0x00, 0x00] = .ok (.txCommand 0x00 [0x01, 0xFF, 0x00, 0x00]) ∧
  decodeRequest [0x02, 0x72, 0xCA, 0x11, 0xC8, 0x7E, 0xE8, 0x62, 0xE9] = .ok (.teaDecipher 0xC811CA72 0xE962E87E) ∧
  decodeRequest [0x14, 0xC0, 0x01, 0x00] = .ok (.txRaw 0xC0 0x01 []) ∧
  decodeRequest [0x31, 0xFE, 0x01] = .ok (.statusClear 0x01FE) ∧
  decodeRequest [0x22, 0x02] = .ok (.ptRead 0x02) ∧
  decodeRequest [0x13, 0x00] = .rejected .badLength ∧ decodeRequest [0xFF, 0x00, 0x00] = .rejected .illegalOp

-- Tag Cipher

/-- R180 to R184: ENCIPHER and DECIPHER are 32 cycles of the published TEA with the four subkeys of KEY, each cycle's sum a
multiple of DELTA. The constants and the mixing come from general knowledge (assumption log 13) and the key's byte order is the
spec's own choice (assumption log 14). -/
def Obligations.CipherRunsThirtyTwoCycles : Prop :=
  ∀ v : Word × Word,
    encipher v = (List.range 32).foldl (fun (v : Word × Word) (i : Nat) =>
      let s := BitVec.ofNat 32 ((i + 1) * 0x9E3779B9)
      let v0 := v.1 + (((v.2 <<< 4) + 0xB0F6FE55#32) ^^^ (v.2 + s) ^^^ ((v.2 >>> 5) + 0x410BBF62#32))
      let v1 := v.2 + (((v0 <<< 4) + 0xB47CB3C9#32) ^^^ (v0 + s) ^^^ ((v0 >>> 5) + 0x7B293E97#32))
      (v0, v1)) v ∧
    decipher v = (List.range 32).foldl (fun (v : Word × Word) (i : Nat) =>
      let s := BitVec.ofNat 32 ((32 - i) * 0x9E3779B9)
      let v1 := v.2 - (((v.1 <<< 4) + 0xB47CB3C9#32) ^^^ (v.1 + s) ^^^ ((v.1 >>> 5) + 0x7B293E97#32))
      let v0 := v.1 - (((v1 <<< 4) + 0xB0F6FE55#32) ^^^ (v1 + s) ^^^ ((v1 >>> 5) + 0x410BBF62#32))
      (v0, v1)) v

/-- R185: ENCIPHER and DECIPHER are exact inverses (their rounds: assumption log 13). -/
def Obligations.EncipherAndDecipherAreInverse : Prop :=
  ∀ v : Word × Word, decipher (encipher v) = v ∧ encipher (decipher v) = v

/-- R186, R187: the block transforms are the Word transforms with little-endian packing, and each undoes the other. -/
def Obligations.BlockTransformsAreInverse : Prop :=
  ∀ b : Block,
    let p := (le32 b[0] b[1] b[2] b[3], le32 b[4] b[5] b[6] b[7])
    (encodeBlock b).toList = le32Bytes (encipher p).1 ++ le32Bytes (encipher p).2 ∧
    (decodeBlock b).toList = le32Bytes (decipher p).1 ++ le32Bytes (decipher p).2 ∧
    decodeBlock (encodeBlock b) = b ∧ encodeBlock (decodeBlock b) = b

/-- R188 to R191: the cipher's host operations answer OK with the transform's bytes and change nothing else. -/
def Obligations.CipherOperationsAnswer : Prop :=
  (∀ (v0 v1 : Word) (s : State),
    exec (.teaEncipher v0 v1) s = .next { s with responses := s.responses ++
      [[0x00, 0x00] ++ le32Bytes (encipher (v0, v1)).1 ++ le32Bytes (encipher (v0, v1)).2] } ∧
    exec (.teaDecipher v0 v1) s = .next { s with responses := s.responses ++
      [[0x00, 0x00] ++ le32Bytes (decipher (v0, v1)).1 ++ le32Bytes (decipher (v0, v1)).2] }) ∧
  (∀ (b : Block) (s : State),
    exec (.teaEncode b) s = .next { s with responses := s.responses ++ [[0x00, 0x00] ++ (encodeBlock b).toList] } ∧
    exec (.teaDecode b) s = .next { s with responses := s.responses ++ [[0x00, 0x00] ++ (decodeBlock b).toList] }) ∧
  RefusesLength 0x01 (fun _ => 9) ∧ RefusesLength 0x02 (fun _ => 9) ∧
  RefusesLength 0x03 (fun _ => 9) ∧ RefusesLength 0x04 (fun _ => 9)

/-- R192: the Word form and the block form of an operation answer the same 8 operand bytes alike. -/
def Obligations.WordAndBlockFormsAgree : Prop :=
  ∀ (b : Block) (s : State), ∃ v0 v1,
    decodeRequest (0x01 :: b.toList) = .ok (.teaEncipher v0 v1) ∧
    decodeRequest (0x02 :: b.toList) = .ok (.teaDecipher v0 v1) ∧
    decodeRequest (0x03 :: b.toList) = .ok (.teaEncode b) ∧
    decodeRequest (0x04 :: b.toList) = .ok (.teaDecode b) ∧
    exec (.teaEncipher v0 v1) s = exec (.teaEncode b) s ∧
    exec (.teaDecipher v0 v1) s = exec (.teaDecode b) s

-- Frame Codec

/-- R141: ASSEMBLE, byte by byte: the header, the payload, the checksum of what stands before it at 4 + n, and zeros up to 32
bytes; from 28 payload bytes on, 5 + n bytes, which validation (R143) refuses. -/
def Obligations.BuiltFramesHaveTheLayout : Prop :=
  ∀ (pfx opc len c : Byte) (pl : List Byte),
    let b := assemble pfx opc len c pl
    b.length = (if pl.length ≤ 27 then 32 else 5 + pl.length) ∧
    b.getD 0 0 = pfx ∧ b.getD 1 0 = len ∧ b.getD 2 0 = opc ∧ b.getD 3 0 = c ∧
    (∀ j < pl.length, b.getD (4 + j) 0 = pl.getD j 0) ∧
    b.getD (4 + pl.length) 0 = BitVec.ofNat 8 (((b.take (4 + pl.length)).map BitVec.toNat).sum % 256) ∧
    (∀ j, 5 + pl.length ≤ j → b.getD j 0 = 0) ∧
    (validFrame b = true ↔ pl.length ≤ 27)

/-- R151: a built frame whose payload has the declared length verifies, and VERIFY gives its checksum byte. -/
def Obligations.MatchingFramesVerify : Prop :=
  ∀ (f : Frame) (opc len c : Byte) (pl : List Byte),
    pl.length ≤ 27 → pl.length + 2 = len.toNat → f.toList = assemble 0x55 opc len c pl →
    verify f = (true, f.toList.getD (4 + pl.length) 0)

/-- R140, R146: a frame that verifies no longer does when one byte before its checksum, other than the declared length, is
changed. -/
def Obligations.OneChangedByteFailsVerify : Prop :=
  ∀ (f : Frame) (i : Fin 32) (x : Byte),
    (verify f).1 = true → i.val ≠ 1 → i.val < f[1].toNat + 2 → x ≠ f[i] → (verify (f.set i x)).1 = false

/-- R145 to R147: the pure host operations of the codec. -/
def Obligations.CodecOperationsAnswer : Prop :=
  (∀ (p : Byte) (f : Frame) (s : State), exec (.frmChecksum p f) s = .next { s with responses := s.responses ++
    [if 32 < p.toNat then [0x81, 0x00]
     else [0x00, 0x00, BitVec.ofNat 8 (((f.toList.take p.toNat).map BitVec.toNat).sum % 256)]] }) ∧
  (∀ (f : Frame) (s : State), exec (.frmVerify f) s = .next { s with responses := s.responses ++
    [if 31 < f[1].toNat + 2 then [0x00, 0x00, 0x00, 0x00]
     else [0x00, 0x00,
      if f.toList.getD (f[1].toNat + 2) 0 = checksum f.toList (f[1].toNat + 2) then 0x01 else 0x00,
      checksum f.toList (f[1].toNat + 2)]] }) ∧
  (∀ (pfx opc len c : Byte) (pl : List Byte) (s : State),
    exec (.frmAssemble pfx opc len c pl) s = .next { s with responses := s.responses ++
      [[if pl.length ≤ 27 then 0x00 else 0x82, if pl.length + 2 = len.toNat then 0x00 else 0x01] ++
        le16Bytes (BitVec.ofNat 16 (if pl.length ≤ 27 then 32 else 5 + pl.length)) ++ assemble pfx opc len c pl] }) ∧
  RefusesLength 0x10 (fun _ => 34) ∧ RefusesLength 0x11 (fun _ => 33) ∧
  RefusesLength 0x12 (fun req => 6 + (req.getD 5 0).toNat)

/-- R144: SEND, by its three outcomes. The counter is used up in each. -/
def Obligations.SendConsumesTheCounter : Prop :=
  ∀ (s : State) (opc len : Byte) (pl : List Byte),
    let f := assemble 0x55 opc len s.ctr pl
    let psm := decide (pl.length + 2 ≠ len.toNat)
    let st := if psm then s.status ||| 0x0002#16 else s.status
    (28 ≤ pl.length → s.send opc len pl =
      ⟨s.ctr, .lenErr, psm, { s with ctr := s.ctr + 1, status := st ||| 0x0004#16 }⟩) ∧
    (pl.length ≤ 27 → s.nextTxAnswer = .err → s.send opc len pl =
      ⟨s.ctr, .txFail, psm, { s.transmit f with ctr := s.ctr + 1, status := st ||| 0x0008#16 }⟩) ∧
    (pl.length ≤ 27 → s.nextTxAnswer = .ok → s.send opc len pl =
      ⟨s.ctr, .sent, psm, { s.transmit f with ctr := s.ctr + 1, status := st }⟩)

/-- R148: TX_COMMAND, its refusals in their priority and its three ends. -/
def Obligations.TxCommandByCases : Prop :=
  (∀ (k : Byte) (pl : List Byte) (s : State),
    let row := catalogRow s.cfg k.toNat
    let bad := 0x0D < k.toNat ∨ k = 0x09 ∨ row.present = false
    let f := assemble 0x55 row.opc row.len s.ctr pl
    let psm := decide (pl.length + 2 ≠ row.len.toNat)
    let st := if psm then s.status ||| 0x0002#16 else s.status
    let w : Byte := if psm then 0x01 else 0x00
    (bad → exec (.txCommand k pl) s = .next { s with responses := s.responses ++ [[0x87, 0x00, 0x00]] }) ∧
    (¬ bad → s.initDone = false →
      exec (.txCommand k pl) s = .next { s with responses := s.responses ++ [[0x84, 0x00, 0x00]] }) ∧
    (¬ bad → s.initDone = true → 28 ≤ pl.length → exec (.txCommand k pl) s = .next { s with
      ctr := s.ctr + 1, status := st ||| 0x0004#16, responses := s.responses ++ [[0x82, w, s.ctr]] }) ∧
    (¬ bad → s.initDone = true → pl.length ≤ 27 → s.nextTxAnswer = .err →
      exec (.txCommand k pl) s = .next { s.transmit f with
        ctr := s.ctr + 1, status := st ||| 0x0008#16, responses := s.responses ++ [[0x83, w, s.ctr]] }) ∧
    (¬ bad → s.initDone = true → pl.length ≤ 27 → s.nextTxAnswer = .ok →
      exec (.txCommand k pl) s = .next { s.transmit f with
        ctr := s.ctr + 1, status := st, responses := s.responses ++ [[0x00, w, s.ctr]] })) ∧
  RefusesLength 0x13 (fun req => 3 + (req.getD 2 0).toNat)

/-- R149: TX_RAW sends any opcode and declared length with the next counter. -/
def Obligations.TxRawByCases : Prop :=
  (∀ (opc len : Byte) (pl : List Byte) (s : State),
    let f := assemble 0x55 opc len s.ctr pl
    let psm := decide (pl.length + 2 ≠ len.toNat)
    let st := if psm then s.status ||| 0x0002#16 else s.status
    let w : Byte := if psm then 0x01 else 0x00
    (s.initDone = false →
      exec (.txRaw opc len pl) s = .next { s with responses := s.responses ++ [[0x84, 0x00, 0x00]] }) ∧
    (s.initDone = true → 28 ≤ pl.length → exec (.txRaw opc len pl) s = .next { s with
      ctr := s.ctr + 1, status := st ||| 0x0004#16, responses := s.responses ++ [[0x82, w, s.ctr]] }) ∧
    (s.initDone = true → pl.length ≤ 27 → s.nextTxAnswer = .err →
      exec (.txRaw opc len pl) s = .next { s.transmit f with
        ctr := s.ctr + 1, status := st ||| 0x0008#16, responses := s.responses ++ [[0x83, w, s.ctr]] }) ∧
    (s.initDone = true → pl.length ≤ 27 → s.nextTxAnswer = .ok →
      exec (.txRaw opc len pl) s = .next { s.transmit f with
        ctr := s.ctr + 1, status := st, responses := s.responses ++ [[0x00, w, s.ctr]] })) ∧
  RefusesLength 0x14 (fun req => 4 + (req.getD 3 0).toNat)

/-- R150: TX_INIT sends the INIT frame with counter 1 and without CTR, and INIT_DONE becomes 1 on Ok only. -/
def Obligations.TxInitByCases : Prop :=
  (∀ s : State,
    let row := catalogRow s.cfg 0x09
    let pl := s.cfg.initPayload
    let f := assemble 0x55 row.opc row.len 0x01 pl
    let psm := decide (pl.length + 2 ≠ row.len.toNat)
    let st := if psm then s.status ||| 0x0002#16 else s.status
    let w : Byte := if psm then 0x01 else 0x00
    (s.initDone = true → exec .txInit s = .next { s with responses := s.responses ++ [[0x85, 0x00]] }) ∧
    (s.initDone = false → 28 ≤ pl.length → exec .txInit s = .next { s with
      status := st ||| 0x0004#16, responses := s.responses ++ [[0x82, w]] }) ∧
    (s.initDone = false → pl.length ≤ 27 → s.nextTxAnswer = .err → exec .txInit s = .next { s.transmit f with
      status := st ||| 0x0008#16, responses := s.responses ++ [[0x83, w]] }) ∧
    (s.initDone = false → pl.length ≤ 27 → s.nextTxAnswer = .ok → exec .txInit s = .next { s.transmit f with
      initDone := true, status := st, responses := s.responses ++ [[0x00, w]] })) ∧
  RefusesLength 0x15 (fun _ => 1)

-- Wire commands (the model's reading of the table's rows, assumption log 11)

/-- Running a wire command of a present row after INIT, answered Ok by the transport, puts exactly that row's frame on the
wire, with the row's opcode and length and the counter CTR, and answers HOST with the counter. The step that a row has is
the model's choice (assumption log 11). -/
def Obligations.WireCommandsSendTheirRow : Prop :=
  ∀ s : State, s.initDone = true → s.nextTxAnswer = .ok →
    let sends := fun (i : Instr) (k : Nat) (pl : List Byte) =>
      let row := catalogRow s.cfg k
      let psm := decide (pl.length + 2 ≠ row.len.toNat)
      row.present = true → pl.length ≤ 27 →
      exec i s = .next { s.transmit (assemble 0x55 row.opc row.len s.ctr pl) with
        ctr := s.ctr + 1
        status := if psm then s.status ||| 0x0002#16 else s.status
        responses := s.responses ++ [[0x00, if psm then 0x01 else 0x00, s.ctr]] }
    (∀ pad r g b, sends (.wireSwitchPad pad r g b) 0x00 [pad, r, g, b]) ∧
    ∀ pl, sends (.wireFadePad pl) 0x01 pl ∧ sends (.wireFlashPad pl) 0x02 pl ∧ sends (.wireSwitchPads pl) 0x03 pl ∧
      sends (.wireFadePads pl) 0x04 pl ∧ sends (.wireFlashPads pl) 0x05 pl ∧ sends (.wireFadeRandom pl) 0x06 pl ∧
      sends (.wireRead pl) 0x07 pl ∧ sends (.wireListModel pl) 0x08 pl ∧ sends (.wireSeed pl) 0x0A pl ∧
      sends (.wireChallenge pl) 0x0B pl ∧ sends (.wireUnnamed0C pl) 0x0C pl ∧ sends (.wireUnnamed0D pl) 0x0D pl

/-- The frame WIRE_SWITCH_PAD puts on the wire (R100, R101): opcode 0xC0, declared length 6 and the payload pad, r, g, b with
no mismatch. And the INIT row's wire command sends the INIT frame with counter 1 (R150). The step that a row has is the
model's choice (assumption log 11). -/
def Obligations.WireSwitchPadAndInitFrames : Prop :=
  (∀ (pad r g b : Byte) (s : State), s.initDone = true → s.nextTxAnswer = .ok →
    exec (.wireSwitchPad pad r g b) s = .next
      { s.transmit ([0x55, 0x06, 0xC0, s.ctr, pad, r, g, b, 0x55 + 0x06 + 0xC0 + s.ctr + pad + r + g + b] ++ zeros 23) with
        ctr := s.ctr + 1, responses := s.responses ++ [[0x00, 0x00, s.ctr]] }) ∧
  (∀ s : State, s.initDone = false → s.nextTxAnswer = .ok → s.cfg.initPayload.length ≤ 27 →
    s.cfg.initPayload.length + 2 = s.cfg.initLen.toNat →
    exec .wireInit s = .next
      { s.transmit (assemble 0x55 s.cfg.initOpc s.cfg.initLen 0x01 s.cfg.initPayload) with
        initDone := true, responses := s.responses ++ [[0x00, 0x00]] })

/-- A wire command of an absent row, and one before INIT, sends nothing (R148; the step that a row has is the model's choice,
assumption log 11). -/
def Obligations.WireCommandsRefusedSendNothing : Prop :=
  ∀ s : State,
    let refuses := fun (i : Instr) (k : Nat) =>
      ((catalogRow s.cfg k).present = false →
        exec i s = .next { s with responses := s.responses ++ [[0x87, 0x00, 0x00]] }) ∧
      ((catalogRow s.cfg k).present = true → s.initDone = false →
        exec i s = .next { s with responses := s.responses ++ [[0x84, 0x00, 0x00]] })
    (∀ pad r g b, refuses (.wireSwitchPad pad r g b) 0x00) ∧
    (∀ pl, refuses (.wireFadePad pl) 0x01 ∧ refuses (.wireFlashPad pl) 0x02 ∧ refuses (.wireSwitchPads pl) 0x03 ∧
      refuses (.wireFadePads pl) 0x04 ∧ refuses (.wireFlashPads pl) 0x05 ∧ refuses (.wireFadeRandom pl) 0x06 ∧
      refuses (.wireRead pl) 0x07 ∧ refuses (.wireListModel pl) 0x08 ∧ refuses (.wireSeed pl) 0x0A ∧
      refuses (.wireChallenge pl) 0x0B ∧ refuses (.wireUnnamed0C pl) 0x0C ∧ refuses (.wireUnnamed0D pl) 0x0D) ∧
    (s.initDone = true → exec .wireInit s = .next { s with responses := s.responses ++ [[0x85, 0x00]] })

-- Event Correlator

/-- R212: before INIT every inbound frame is dropped with NOT_INIT, and with RXCK_EN one that does not verify with CKSUM. -/
def Obligations.PrecheckDrops : Prop :=
  ∀ (f : Frame) (s : State),
    ∀ i ∈ [Instr.rxEvent f, Instr.rxReadReply f, Instr.rxModelReply f, Instr.rxBadMarker f, Instr.rxBadPrefix f],
      (s.initDone = false → exec i s = .next { s with status := (s.status &&& 0x0FFF#16) ||| 0x1080#16 }) ∧
      (s.initDone = true → s.ctrl.getLsbD 0 = true → (verify f).1 = false →
        exec i s = .next { s with status := (s.status &&& 0x0FFF#16) ||| 0x2180#16 })

/-- R213, R218: past the pre-checks, a frame with another first byte is dropped with BAD_PREFIX and a reply with another marker
with BAD_MARKER; nothing else changes. -/
def Obligations.BadPrefixAndMarkerDropped : Prop :=
  ∀ (f : Frame) (s : State), s.initDone = true → (s.ctrl.getLsbD 0 = true → (verify f).1 = true) →
    exec (.rxBadPrefix f) s = .next { s with status := (s.status &&& 0x0FFF#16) ||| 0x3080#16 } ∧
    exec (.rxBadMarker f) s = .next { s with status := (s.status &&& 0x0FFF#16) ||| 0x6080#16 }

/-- R214: an unknown pad is dropped with BAD_PAD whatever the action, and a known pad with an unknown action with
BAD_ACTION. -/
def Obligations.UnknownPadOrActionDropped : Prop :=
  ∀ (f : Frame) (s : State), s.initDone = true → (s.ctrl.getLsbD 0 = true → (verify f).1 = true) →
    let pads := [s.cfg.padLeft, 0x01, s.cfg.padRight, s.cfg.padAll]
    (f[s.cfg.evtPadOff] ∉ pads →
      exec (.rxEvent f) s = .next { s with status := (s.status &&& 0x0FFF#16) ||| 0x4080#16 }) ∧
    (f[s.cfg.evtPadOff] ∈ pads → f[5] ≠ 0x01 → f[5] ≠ s.cfg.actRemoved →
      exec (.rxEvent f) s = .next { s with status := (s.status &&& 0x0FFF#16) ||| 0x5080#16 })

/-- R215: an ADDED event of a cached uid appends a resolved record and does nothing else: no frame, PT and TC unchanged. -/
def Obligations.CachedTagReportedAtOnce : Prop :=
  ∀ (f : Frame) (s : State) (tag : Tag), s.initDone = true → (s.ctrl.getLsbD 0 = true → (verify f).1 = true) →
    f[s.cfg.evtPadOff] ∈ [s.cfg.padLeft, 0x01, s.cfg.padRight, s.cfg.padAll] → f[5] = 0x01 →
    s.tcLookup #v[f[6], f[7], f[8], f[9], f[10], f[11], f[12]] = some tag →
    exec (.rxEvent f) s = .next { s with evq := s.evq ++ [{
      pad := f[s.cfg.evtPadOff], action := .added, tag := some tag, device := s.cfg.deviceIndex
      uid := #v[f[6], f[7], f[8], f[9], f[10], f[11], f[12]] }] }

/-- R216, R224: an ADDED event of an uncached uid sends a READ with CTR; sent Ok, PT[CTR] awaits its reply, with PTCOLL if it was
valid; failed, no entry is written and FUTXERR is set. No record is appended in either. -/
def Obligations.UncachedTagStartsIdentification : Prop :=
  ∀ (f : Frame) (s : State), s.initDone = true → (s.ctrl.getLsbD 0 = true → (verify f).1 = true) →
    f[s.cfg.evtPadOff] ∈ [s.cfg.padLeft, 0x01, s.cfg.padRight, s.cfg.padAll] → f[5] = 0x01 →
    s.tcLookup #v[f[6], f[7], f[8], f[9], f[10], f[11], f[12]] = none →
    let pl := readPayload s.cfg f[4]
    let fr := assemble 0x55 s.cfg.readOpc s.cfg.readLen s.ctr pl
    let st := if pl.length + 2 = s.cfg.readLen.toNat then s.status else s.status ||| 0x0002#16
    (s.nextTxAnswer = .ok → exec (.rxEvent f) s = .next { s.transmit fr with
      ctr := s.ctr + 1
      status := if (s.ptAt s.ctr).valid then st ||| 0x0020#16 else st
      pt := s.pt.set s.ctr.toNat { valid := true, stage := .awaitRead, pad := f[s.cfg.evtPadOff], idx := f[4]
                                   uid := #v[f[6], f[7], f[8], f[9], f[10], f[11], f[12]] } s.ctr.isLt }) ∧
    (s.nextTxAnswer = .err → exec (.rxEvent f) s = .next { s.transmit fr with
      ctr := s.ctr + 1, status := st ||| 0x0018#16 })

/-- R217: a REMOVED event appends a record with the cached Tag, or an unresolved one, and does nothing else. -/
def Obligations.RemovedReportedFromCache : Prop :=
  ∀ (f : Frame) (s : State), s.initDone = true → (s.ctrl.getLsbD 0 = true → (verify f).1 = true) →
    f[s.cfg.evtPadOff] ∈ [s.cfg.padLeft, 0x01, s.cfg.padRight, s.cfg.padAll] →
    f[5] ≠ 0x01 → f[5] = s.cfg.actRemoved →
    exec (.rxEvent f) s = .next { s with evq := s.evq ++ [{
      pad := f[s.cfg.evtPadOff], action := .removed
      tag := s.tcLookup #v[f[6], f[7], f[8], f[9], f[10], f[11], f[12]]
      device := s.cfg.deviceIndex, uid := #v[f[6], f[7], f[8], f[9], f[10], f[11], f[12]] }] }

/-- R219: a reply whose counter has no valid entry is dropped with NO_PENDING, and one of the wrong kind with STAGE; the entry
stays. -/
def Obligations.UnmatchedReplyDropped : Prop :=
  ∀ (f : Frame) (s : State), s.initDone = true → (s.ctrl.getLsbD 0 = true → (verify f).1 = true) →
    ((s.ptAt f[3]).valid = false →
      exec (.rxReadReply f) s = .next { s with status := (s.status &&& 0x0FFF#16) ||| 0x7080#16 } ∧
      exec (.rxModelReply f) s = .next { s with status := (s.status &&& 0x0FFF#16) ||| 0x7080#16 }) ∧
    ((s.ptAt f[3]).valid = true → (s.ptAt f[3]).stage = .awaitModel →
      exec (.rxReadReply f) s = .next { s with status := (s.status &&& 0x0FFF#16) ||| 0x8080#16 }) ∧
    ((s.ptAt f[3]).valid = true → (s.ptAt f[3]).stage = .awaitRead →
      exec (.rxModelReply f) s = .next { s with status := (s.status &&& 0x0FFF#16) ||| 0x8080#16 })

/-- R225: TCInsert. A cached uid keeps its Tag; a full cache takes nothing and sets TCFULL; else the uid, and no other, is
added. -/
def Obligations.FirstCacheInsertionWins : Prop :=
  ∀ (s : State) (uid : Uid) (t : Tag),
    (s.tcLookup uid ≠ none → s.tcInsert uid t = s) ∧
    (s.tcLookup uid = none → s.cfg.tcCapacity = some s.tc.length →
      s.tcInsert uid t = { s with status := s.status ||| 0x0040#16 }) ∧
    (s.tcLookup uid = none → s.cfg.tcCapacity ≠ some s.tc.length →
      (s.tcInsert uid t).tcLookup uid = some t ∧
      (∀ u ≠ uid, (s.tcInsert uid t).tcLookup u = s.tcLookup u) ∧
      (s.tcInsert uid t).tc.length = s.tc.length + 1 ∧
      s.tcInsert uid t = { s with tc := (s.tcInsert uid t).tc })

/-- R220, R223: a matched READ reply of a vehicle and a matched LIST-MODEL reply clear their entry, insert the Tag and append a
resolved ADDED record. No frame is sent, and every other entry and register stays. That the cleared entry keeps its other
fields, which the spec leaves unspecified, is the model's choice (assumption log 10). -/
def Obligations.IdentificationResolves : Prop :=
  ∀ (f : Frame) (s : State), s.initDone = true → (s.ctrl.getLsbD 0 = true → (verify f).1 = true) →
    (s.ptAt f[3]).valid = true →
    let e := s.ptAt f[3]
    let resolved := fun (i : Instr) (tag : Tag) => ∃ t, exec i s = .next t ∧
      t.ptAt f[3] = { e with valid := false } ∧ (∀ c ≠ f[3], t.ptAt c = s.ptAt c) ∧
      t.evq = s.evq ++ [{ pad := e.pad, action := .added, tag := some tag, device := s.cfg.deviceIndex, uid := e.uid }] ∧
      t.tc = (s.tcInsert e.uid tag).tc ∧ t.status = (s.tcInsert e.uid tag).status ∧
      t.registers = s.registers ∧ t.outside = s.outside
    (e.stage = .awaitRead → classify s.cfg f = .vehicle →
      resolved (.rxReadReply f) { kind := .vehicle, id := (vehicleId s.cfg f).setWidth 32 }) ∧
    (e.stage = .awaitModel →
      resolved (.rxModelReply f) { kind := .character
                                   id := charId s.cfg (decodeBlock #v[f[4], f[5], f[6], f[7], f[8], f[9], f[10], f[11]]) })

/-- R221, R224: a matched READ reply of a character clears its entry and sends a LIST-MODEL whose payload is the enciphered
index; sent Ok, PT[CTR] awaits the model reply, and PTCOLL is raised only if CTR's entry is another valid one; failed, no
entry is written and FUTXERR is set. No record is appended. That the cleared entry keeps its other fields, which the spec leaves
unspecified, is the model's choice (assumption log 10). -/
def Obligations.CharacterAsksForItsModel : Prop :=
  ∀ (f : Frame) (s : State), s.initDone = true → (s.ctrl.getLsbD 0 = true → (verify f).1 = true) →
    (s.ptAt f[3]).valid = true → (s.ptAt f[3]).stage = .awaitRead → classify s.cfg f = .character →
    let e := s.ptAt f[3]
    let pl := (encodeBlock (lmPlain s.cfg e.idx)).toList
    let fr := assemble 0x55 s.cfg.listModelOpc 0x0A s.ctr pl
    let cleared := s.pt.set f[3].toNat { e with valid := false } f[3].isLt
    (s.nextTxAnswer = .ok → exec (.rxReadReply f) s = .next { s.transmit fr with
      ctr := s.ctr + 1
      status := if s.ctr ≠ f[3] ∧ (s.ptAt s.ctr).valid = true then s.status ||| 0x0020#16 else s.status
      pt := cleared.set s.ctr.toNat
        { valid := true, stage := .awaitModel, pad := e.pad, idx := e.idx, uid := e.uid } s.ctr.isLt }) ∧
    (s.nextTxAnswer = .err → exec (.rxReadReply f) s = .next { s.transmit fr with
      ctr := s.ctr + 1, status := s.status ||| 0x0018#16, pt := cleared })

/-- R222: a matched READ reply with an unknown discriminator is dropped with BAD_DISC, and its entry stays valid. -/
def Obligations.UnknownDiscriminatorDropped : Prop :=
  ∀ (f : Frame) (s : State), s.initDone = true → (s.ctrl.getLsbD 0 = true → (verify f).1 = true) →
    (s.ptAt f[3]).valid = true → (s.ptAt f[3]).stage = .awaitRead → classify s.cfg f = .unknown →
    exec (.rxReadReply f) s = .next { s with status := (s.status &&& 0x0FFF#16) ||| 0x9080#16 }

/-- R228: what one RxStep can do at most. The one entry it writes as valid stands at CTR, under the counter of the one frame
it sends; the one it clears stands at the counter of a reply, byte 3; the one uid TC gains is that entry's. -/
def Obligations.RxStepBounds : Prop :=
  ∀ (f : Frame) (s t : State),
    ∀ i ∈ [Instr.rxEvent f, Instr.rxReadReply f, Instr.rxModelReply f, Instr.rxBadMarker f, Instr.rxBadPrefix f],
    exec i s = .next t →
    let reply := i = .rxReadReply f ∨ i = .rxModelReply f
    let sender := i = .rxEvent f ∨ i = .rxReadReply f
    (t.evq = s.evq ∨ ∃ r, t.evq = s.evq ++ [r]) ∧
    (t.txLog = s.txLog ∨ (sender ∧ ∃ x, t.txLog = s.txLog ++ [x])) ∧
    (t.ctr = s.ctr ∨ (sender ∧ t.ctr = s.ctr + 1)) ∧
    (∀ c, (t.ptAt c).valid = true → t.ptAt c = s.ptAt c ∨ (c = s.ctr ∧ sender ∧ t.ctr = s.ctr + 1)) ∧
    (∀ c, (s.ptAt c).valid = true → (t.ptAt c).valid = true ∨ (c = f[3] ∧ reply)) ∧
    (∀ c, c ≠ s.ctr → c ≠ f[3] → t.ptAt c = s.ptAt c) ∧
    (t.tc = s.tc ∨
      let uid := (s.ptAt f[3]).uid
      reply ∧ (s.ptAt f[3]).valid = true ∧ s.tcLookup uid = none ∧ t.tcLookup uid ≠ none ∧
        (∀ u ≠ uid, t.tcLookup u = s.tcLookup u) ∧ t.tc.length = s.tc.length + 1)

/-- R229: EVT_POP. -/
def Obligations.EvtPopTakesTheOldest : Prop :=
  (∀ s : State, s.evq = [] →
    exec .evtPop s = .next { s with responses := s.responses ++ [[0x86, 0x00] ++ zeros 16] }) ∧
  (∀ (s : State) (r : TagEvent) (rest : List TagEvent), s.evq = r :: rest →
    exec .evtPop s = .next { s with evq := rest, responses := s.responses ++ [[0x00, 0x00] ++ recordBytes r] }) ∧
  RefusesLength 0x20 (fun _ => 1)

/-- R125: the bytes of a record, by its Tag. -/
def Obligations.RecordLayout : Prop :=
  ∀ (pad dev u0 u1 u2 u3 u4 u5 u6 : Byte) (a : Action) (id : Word),
    let act : Byte := if a = .added then 0x01 else 0x02
    let bytes := fun (b2 : Byte) (w : Word) =>
      [pad, act, b2, dev, u0, u1, u2, u3, u4, u5, u6,
        w.extractLsb' 0 8, w.extractLsb' 8 8, w.extractLsb' 16 8, w.extractLsb' 24 8, 0x00]
    recordBytes ⟨pad, a, none, dev, #v[u0, u1, u2, u3, u4, u5, u6]⟩ = bytes 0x00 0 ∧
    recordBytes ⟨pad, a, some ⟨.character, id⟩, dev, #v[u0, u1, u2, u3, u4, u5, u6]⟩ = bytes 0x03 id ∧
    recordBytes ⟨pad, a, some ⟨.vehicle, id⟩, dev, #v[u0, u1, u2, u3, u4, u5, u6]⟩ = bytes 0x05 id

/-- R230, R231: CACHE_LOOKUP and PT_READ answer from the tables and change nothing. -/
def Obligations.TableReadsAnswer : Prop :=
  (∀ (uid : Uid) (s : State), exec (.cacheLookup uid) s = .next { s with responses := s.responses ++
    [[0x00, 0x00] ++ match s.tcLookup uid with
      | none => [0x00, 0x00, 0x00, 0x00, 0x00, 0x00]
      | some tag => [0x01, if tag.kind = .character then 0x01 else 0x02] ++ le32Bytes tag.id] }) ∧
  (∀ (c : Byte) (s : State), exec (.ptRead c) s = .next { s with responses := s.responses ++
    [[0x00, 0x00] ++ if (s.ptAt c).valid = false then zeros 11
      else [0x01, if (s.ptAt c).stage = .awaitRead then 0x00 else 0x01, (s.ptAt c).pad, (s.ptAt c).idx] ++
        (s.ptAt c).uid.toList] }) ∧
  RefusesLength 0x21 (fun _ => 8) ∧ RefusesLength 0x22 (fun _ => 2)

-- Control operations and the registers

/-- R260, R261: NOP, and STATUS_READ with STATUS, CTRL, CTR, |EVQ| and the saturating count of TC; the bits of STATUS as read.
Neither changes the state. -/
def Obligations.NopAndStatusReadAnswer : Prop :=
  (∀ s : State, exec .nop s = .next { s with responses := s.responses ++ [[0x00, 0x00]] }) ∧
  (∀ s : State, exec .statusRead s = .next { s with responses := s.responses ++
    [[0x00, 0x00] ++ le16Bytes s.statusWord ++ [s.ctrl &&& 0x03#8, s.ctr, BitVec.ofNat 8 s.evq.length] ++
      le16Bytes (BitVec.ofNat 16 (min s.tc.length 0xFFFF))] }) ∧
  (∀ (s : State) (i : Nat), i < 16 → s.statusWord.getLsbD i =
    if i = 0 then s.initDone
    else if i = 9 then decide (0 < s.evq.length)
    else if i = 10 then decide (s.evq.length = evqDepth s.cfg)
    else if i = 11 then false
    else s.status.getLsbD i) ∧
  RefusesLength 0x00 (fun _ => 1) ∧ RefusesLength 0x30 (fun _ => 1)

/-- R262, R34: STATUS_CLEAR, bit by bit. -/
def Obligations.StatusClearByBits : Prop :=
  (∀ (mask : BitVec 16) (s : State), ∃ t, exec (.statusClear mask) s = .next t ∧
    t = { s with status := t.status, responses := s.responses ++ [[0x00, 0x00]] } ∧
    ∀ i < 16, t.status.getLsbD i =
      if 1 ≤ i ∧ i ≤ 8 then s.status.getLsbD i && !mask.getLsbD i
      else if 12 ≤ i then s.status.getLsbD i && !mask.getLsbD 7
      else s.status.getLsbD i) ∧
  RefusesLength 0x31 (fun _ => 3)

/-- R263: CTRL_WRITE. -/
def Obligations.CtrlWriteKeepsTwoBits : Prop :=
  (∀ (v : Byte) (s : State), exec (.ctrlWrite v) s = .next
    { s with ctrl := v &&& 0x03#8, responses := s.responses ++ [[0x00, 0x00]] }) ∧
  (∀ (v : Byte) (s t : State), exec (.ctrlWrite v) s = .next t →
    t.irq = (v.getLsbD 1 && decide (0 < s.evq.length)) ∧ t.ctrl.getLsbD 0 = v.getLsbD 0) ∧
  RefusesLength 0x32 (fun _ => 2)

/-- R284, R52: the IRQ level. It falls when EVT_POP empties EVQ (R229), and in a step only so, or when CTRL_WRITE clears IRQ_EN,
or at reset (that requests stand in a list is the model's, assumption log 6). -/
def Obligations.IrqFollowsTheQueue : Prop :=
  (∀ s : State, s.irq = (s.ctrl.getLsbD 1 && decide (0 < s.evq.length))) ∧
  (∀ s t : State, exec .evtPop s = .next t → s.evq.length ≤ 1 → t.irq = false) ∧
  (∀ s t : State, step s = .next t → s.irq = true → t.irq = false →
    s.rst = true ∨
    (s.hostq = .request [0x20] :: t.hostq ∧ s.evq.length = 1 ∧ t.evq = []) ∨
    (∃ v : Byte, s.hostq = .request [0x32, v] :: t.hostq ∧ v.getLsbD 1 = false))

-- The whole machine

/-- The invariant holds right after reset (the configuration within R7's constraints, assumption log 3, and the
model's choice of order in TC, assumption log 16). -/
def Obligations.InvariantAtReset : Prop := State.reset.Inv

/-- Every step keeps the invariant: the configuration within R7's constraints (assumption log 3), EVQ and TC within their bounds,
TC canonical, the reserved bits of STATUS and CTRL zero, LAST_DROP in step with RXDROP, every transmitted frame well built,
nothing identified before INIT. The order in TC is the model's (assumption log 16). -/
def Obligations.StepKeepsTheInvariant : Prop :=
  ∀ s t : State, s.Inv → step s = .next t → t.Inv

/-- R30, R44: no step writes the configuration. -/
def Obligations.NoStepWritesTheConfiguration : Prop :=
  ∀ s t : State, step s = .next t → t.cfg = s.cfg

/-- R39, R86: but for reset, no step removes or replaces what the cache holds for a uid. -/
def Obligations.CacheNeverForgets : Prop :=
  ∀ (s t : State) (uid : Uid) (tag : Tag), s.rst = false → step s = .next t →
    s.tcLookup uid = some tag → t.tcLookup uid = some tag

/-- R32: INIT_DONE, once 1, stays until reset; only the INIT send makes it 1. -/
def Obligations.InitDoneStaysUntilReset : Prop :=
  (∀ s t : State, s.rst = false → s.initDone = true → step s = .next t → t.initDone = true) ∧
  (∀ (i : Instr) (s t : State), exec i s = .next t → t.initDone ≠ s.initDone → i = .txInit ∨ i = .wireInit)

/-- R33: no operation sets a sticky flag back to 0 but STATUS_CLEAR, and that only the flags its mask selects. -/
def Obligations.StickyFlagsStay : Prop :=
  ∀ (i : Instr) (s t : State) (f : Flag), exec i s = .next t → flagOf s.status f = true →
    flagOf t.status f = true ∨ ∃ mask, i = .statusClear mask ∧ mask.getLsbD f.bit = true

/-- R31: CTR is written only by SEND, which adds 1 and runs only after INIT, and by reset. -/
def Obligations.CounterOnlyCountsSends : Prop :=
  (∀ (i : Instr) (s t : State), exec i s = .next t →
    t.ctr = s.ctr ∨ (t.ctr = s.ctr + 1 ∧ sends i = true ∧ s.initDone = true)) ∧
  (∀ s t : State, step s = .next t → t.ctr = s.ctr ∨ t.ctr = s.ctr + 1 ∨ (s.rst = true ∧ t.ctr = 0x02))

/-- R36, R37, R39, R41: what no host operation changes: PT and TC at all, CTRL but by CTRL_WRITE, EVQ but by EVT_POP, which takes
the oldest record. -/
def Obligations.HostOperationsKeepTheTables : Prop :=
  ∀ (i : Instr) (s t : State), inbound i = false → exec i s = .next t →
    t.pt = s.pt ∧ t.tc = s.tc ∧ (t.ctrl = s.ctrl ∨ ∃ v, i = .ctrlWrite v) ∧
    (t.evq = s.evq ∨ (i = .evtPop ∧ t.evq = s.evq.tail))

/-- R48, R49, R50, R104, R210: a host operation answers exactly once and passes at most one frame to Transmit, an RxStep never
answers, and neither touches what the agents still offer but TX's answer. And Transmit itself: it records the frame with TX's
answer and uses that answer up, the first one offered or else a free value, and does nothing else (that answers stand in a
list, and the counter of the free ones, are the model's, assumption log 4). -/
def Obligations.EachStepAnswersAndSendsAtMostOnce : Prop :=
  (∀ (i : Instr) (s t : State), exec i s = .next t →
    (if inbound i then t.responses = s.responses else ∃ rc w d, t.responses = s.responses ++ [rc :: w :: d]) ∧
    (t.txLog = s.txLog ∨ ∃ f, t.txLog = s.txLog ++ [(f, s.nextTxAnswer)] ∧ f.length = 32) ∧
    t.hostq = s.hostq ∧ t.rxq = s.rxq ∧ t.rst = s.rst ∧ t.turns = s.turns) ∧
  (∀ (s : State) (f : List Byte), s.transmit f = { s with
    txLog := s.txLog ++ [(f, s.nextTxAnswer)]
    txAnswers := s.txAnswers.tail
    draws := if s.txAnswers = [] then s.draws + 1 else s.draws }) ∧
  (∀ (s : State) (a : TxResult) (as : List TxResult), s.txAnswers = a :: as → s.nextTxAnswer = a)

/-- A request refused with E_OPERAND, E_NOT_INIT, E_ALREADY_INIT or E_BAD_KIND (R285, R288), or answered E_EMPTY (R229), leaves
everything but the responses as it was. -/
def Obligations.RefusedRequestLeavesTheState : Prop :=
  ∀ (i : Instr) (s t : State) (rc w : Byte) (d : List Byte), exec i s = .next t →
    t.responses = s.responses ++ [rc :: w :: d] → rc ∈ [0x81, 0x84, 0x85, 0x86, (0x87 : Byte)] →
    t = { s with responses := t.responses }

/-- R280: no trap. Every step answers a next state, unless the model's own command port holds a frame that decodes to no
command (assumption log 11). It rests on Transmit always answering within its step (R50, assumption log 20). -/
def Obligations.NoStepTraps : Prop :=
  ∀ s : State, (∃ t, step s = .next t) ∨
    (∃ f hs e, s.hostq = .command f :: hs ∧ decodeCommand s.cfg f.toList = .rejected e ∧
      step s = .refused .notACommandFrame)

/-- R81: EVQ is a FIFO: a step leaves it, appends one record at its end, takes the record at its front, or is a reset. -/
def Obligations.EventQueueIsFifo : Prop :=
  ∀ s t : State, step s = .next t →
    t.evq = s.evq ∨ (∃ r, t.evq = s.evq ++ [r]) ∨
    (∃ r, s.evq = r :: t.evq ∧ t.responses = s.responses ++ [[0x00, 0x00] ++ recordBytes r]) ∨
    (s.rst = true ∧ t.evq = [])
end

