-- ==== Sys2Proof/Laws/Cipher.lean ====
section
/-! SUPPORT. Laws of the cipher's cycles: each undoes the other, and where the sum stands after n of them. -/

namespace Sys2Proof.Machine

open Sys2Proof

/-- A cycle of DECIPHER undoes one of ENCIPHER. -/
theorem decipherStep_encipherStep (p : Word × (Word × Word)) : decipherStep (encipherStep p) = p := by
  simp [encipherStep, decipherStep, decipherCycle, encipherCycle]

/-- A cycle of ENCIPHER undoes one of DECIPHER. -/
theorem encipherStep_decipherStep (p : Word × (Word × Word)) : encipherStep (decipherStep p) = p := by
  simp [encipherStep, decipherStep, decipherCycle, encipherCycle]

/-- The sum after `n` cycles of ENCIPHER (R183). -/
theorem encipherStep_sum (n : Nat) (p : Word × (Word × Word)) :
    (encipherStep^[n] p).1 = p.1 + BitVec.ofNat 32 n * teaDelta := by
  induction n with
  | zero => simp
  | succ n ih =>
    rw [Function.iterate_succ_apply', encipherStep, ih, BitVec.ofNat_add]
    simp only [BitVec.add_mul, BitVec.one_mul]; ac_rfl

/-- The sum after `n` cycles of DECIPHER (R184). -/
theorem decipherStep_sum (n : Nat) (p : Word × (Word × Word)) :
    (decipherStep^[n] p).1 = p.1 - BitVec.ofNat 32 n * teaDelta := by
  induction n with
  | zero => simp
  | succ n ih =>
    rw [Function.iterate_succ_apply', decipherStep, ih, BitVec.ofNat_add]
    simp only [BitVec.add_mul, BitVec.one_mul, BitVec.sub_eq_add_neg, BitVec.neg_add]; ac_rfl

end Sys2Proof.Machine
end

