-- ==== Sys2Proof/Laws/Flags.lean ====
section
/-! SUPPORT. Laws of STATUS and CTRL: what each change of them does to each flag and to LAST_DROP, and R51's and R52's own forms. -/

namespace Sys2Proof.Machine

open Sys2Proof

theorem Flag.bit_lt (f : Flag) : 1 ≤ f.bit ∧ f.bit ≤ 8 := by cases f <;> decide

theorem Flag.bit_inj (f g : Flag) : f.bit = g.bit ↔ f = g := by cases f <;> cases g <;> decide

/-- Setting a flag sets that bit and no other. -/
theorem withFlag_getLsbD (st : BitVec 16) (f : Flag) (i : Nat) :
    (withFlag st f).getLsbD i = (st.getLsbD i || decide (i = f.bit)) := by
  have := f.bit_lt
  simp only [withFlag, BitVec.getLsbD_or, BitVec.getLsbD_shiftLeft, BitVec.getLsbD_one]
  grind

theorem flagOf_withFlag (st : BitVec 16) (f g : Flag) : flagOf (withFlag st f) g = (flagOf st g || decide (g = f)) := by
  simp [flagOf, withFlag_getLsbD, Flag.bit_inj]

/-- Writing LAST_DROP writes bits 15:12 and no other. -/
theorem withLastDrop_getLsbD (st : BitVec 16) (c : BitVec 4) (i : Nat) :
    (withLastDrop st c).getLsbD i = if i < 12 then st.getLsbD i else c.getLsbD (i - 12) := by
  simp [withLastDrop]; grind

theorem flagOf_withLastDrop (st : BitVec 16) (c : BitVec 4) (f : Flag) : flagOf (withLastDrop st c) f = flagOf st f := by
  have := f.bit_lt
  rw [flagOf, withLastDrop_getLsbD, if_pos (by omega)]; rfl

@[simp] theorem lastDropOf_withLastDrop (st : BitVec 16) (c : BitVec 4) : lastDropOf (withLastDrop st c) = c := by
  ext i hi
  rw [← BitVec.getLsbD_eq_getElem, ← BitVec.getLsbD_eq_getElem, lastDropOf, BitVec.getLsbD_extractLsb',
    withLastDrop_getLsbD]
  simp [hi]

theorem lastDropOf_withFlag (st : BitVec 16) (f : Flag) : lastDropOf (withFlag st f) = lastDropOf st := by
  have := f.bit_lt
  ext i hi
  rw [← BitVec.getLsbD_eq_getElem, ← BitVec.getLsbD_eq_getElem, lastDropOf, lastDropOf, BitVec.getLsbD_extractLsb',
    BitVec.getLsbD_extractLsb', withFlag_getLsbD]
  have : ¬ (12 + i = f.bit) := by omega
  simp [this]

/-- What dropping a frame leaves in STATUS (R211): RXDROP set and the code in LAST_DROP. -/
theorem dropped_status (st : BitVec 16) (c : BitVec 4) :
    withLastDrop (withFlag st .rxdrop) c = (st &&& 0x0FFF#16) ||| (c.setWidth 16 <<< 12 ||| 0x0080#16) := by
  apply BitVec.eq_of_getLsbD_eq
  intro i hi
  rw [withLastDrop_getLsbD, withFlag_getLsbD]
  interval_cases i <;> simp [Flag.bit]

/-- What dropping a frame with CKSUM leaves in STATUS (R212). -/
theorem cksum_status (st : BitVec 16) :
    withLastDrop (withFlag (withFlag st .rxcksum) .rxdrop) DropReason.cksum.code = (st &&& 0x0FFF#16) ||| 0x2180#16 := by
  rw [dropped_status]
  apply BitVec.eq_of_getLsbD_eq
  intro i hi
  simp only [withFlag, Flag.bit, DropReason.code]
  interval_cases i <;> simp

/-- STATUS_CLEAR bit by bit (R262). -/
theorem clearedStatus_getLsbD (st mask : BitVec 16) (i : Nat) (h : i < 16) : (clearedStatus st mask).getLsbD i =
    if 1 ≤ i ∧ i ≤ 8 then st.getLsbD i && !mask.getLsbD i
    else if 12 ≤ i then st.getLsbD i && !mask.getLsbD 7
    else st.getLsbD i := by
  have key : (0x01FE#16).getLsbD i = decide (1 ≤ i ∧ i ≤ 8) := by
    have : ∀ i < 16, (0x01FE#16).getLsbD i = decide (1 ≤ i ∧ i ≤ 8) := by decide
    exact this i h
  have st1 : (st &&& ~~~(mask &&& 0x01FE#16)).getLsbD i = (st.getLsbD i && !(mask.getLsbD i && decide (1 ≤ i ∧ i ≤ 8))) := by
    simp only [BitVec.getLsbD_and, BitVec.getLsbD_not, key, h]; simp
  have e : Flag.rxdrop.bit = 7 := rfl
  simp only [clearedStatus]
  by_cases hm : mask.getLsbD Flag.rxdrop.bit = true
  · rw [if_pos hm, withLastDrop_getLsbD, st1, ← e, hm]; simp; grind
  · rw [if_neg hm, st1, ← e]; grind

/-- EVQFULL, R52's form. -/
theorem evqfull_iff (s : State) : s.evqfull = true ↔ s.evq.length = evqDepth s.cfg := by
  have d : evqDepth s.cfg = s.cfg.evqDepthPred.val + 1 := rfl
  simp only [State.evqfull, State.evqne, Bool.and_eq_true, decide_eq_true_eq]
  exact ⟨fun h => h.2, fun h => ⟨by omega, h⟩⟩

end Sys2Proof.Machine
end

