-- ==== Sys2Proof/Laws/Frame.lean ====
section
/-! SUPPORT. Laws of the byte-string functions: little-endian packing, the operands of a byte string, assembly. -/

namespace Sys2Proof.Machine

open Sys2Proof

@[simp] theorem zeros_length (k : Nat) : (zeros k).length = k := by simp [zeros]

@[simp] theorem zeros_getD (k i : Nat) : (zeros k).getD i 0 = 0 := by
  simp only [zeros, List.getD_eq_getElem?_getD, List.getElem?_replicate]; split <;> rfl

@[simp] theorem le16Bytes_length (w : BitVec 16) : (le16Bytes w).length = 2 := rfl

@[simp] theorem le32Bytes_length (w : Word) : (le32Bytes w).length = 4 := rfl

/-- LE16 undoes LE16bytes (R10). -/
theorem le16_le16Bytes (w : BitVec 16) : le16 (w.extractLsb' 0 8) (w.extractLsb' 8 8) = w := by
  unfold le16; ext i hi; simp; grind

/-- LE16bytes undoes LE16 (R10). -/
theorem le16Bytes_le16 (a b : Byte) : le16Bytes (le16 a b) = [a, b] := by
  unfold le16 le16Bytes; simp; grind

/-- LE32 undoes LE32bytes (R10). -/
theorem le32_le32Bytes (w : Word) :
    le32 (w.extractLsb' 0 8) (w.extractLsb' 8 8) (w.extractLsb' 16 8) (w.extractLsb' 24 8) = w := by
  unfold le32; ext i hi; simp; grind

/-- LE32bytes undoes LE32 (R10). -/
theorem le32Bytes_le32 (a b c d : Byte) : le32Bytes (le32 a b c d) = [a, b, c, d] := by
  unfold le32 le32Bytes; simp; grind

@[simp] theorem bytesAt_getElem (n k i : Nat) (l : List Byte) (h : i < n) :
    (bytesAt n l k)[i] = l.getD (k + i) 0 := by
  simp [bytesAt]

/-- An operand of `n` bytes is the `n` bytes that follow position `k`. -/
theorem bytesAt_append (n : Nat) (v : Vector Byte n) (p r : List Byte) : bytesAt n (p ++ (v.toList ++ r)) p.length = v := by
  ext i hi
  simp [List.getElem?_append_right, List.getElem?_append_left, hi]

/-- The bytes of an operand that lies within its byte string. -/
theorem bytesAt_toList (n k : Nat) (l : List Byte) (h : k + n ≤ l.length) :
    (bytesAt n l k).toList = (l.drop k).take n := by
  apply List.ext_getElem
  · simp; omega
  · intro i h1 h2
    simp at h1
    simp [show k + i < l.length by omega]

/-- A Word pair survives the block form (R73). -/
theorem blockWords_wordsBlock (v : Word × Word) : blockWords (wordsBlock v) = v := by
  simp [blockWords, wordsBlock, le32Bytes, le32_le32Bytes]

/-- A block survives the Word form (R73). -/
theorem wordsBlock_blockWords (b : Block) : wordsBlock (blockWords b) = b := by
  ext1 i hi
  simp only [wordsBlock, blockWords, le32Bytes_le32, bytesAt_getElem]
  interval_cases i <;> rfl

/-- The bytes of a Word pair (R73). -/
theorem wordsBlock_toList (v : Word × Word) : (wordsBlock v).toList = le32Bytes v.1 ++ le32Bytes v.2 := by
  rw [wordsBlock, bytesAt_toList _ _ _ (by simp)]; rfl

@[simp] theorem frameHead_length (pfx opc len c : Byte) (pl : List Byte) :
    (frameHead pfx opc len c pl).length = 4 + pl.length := by simp [frameHead]; omega

/-- The length of what ASSEMBLE builds (R141). -/
theorem assemble_length (pfx opc len c : Byte) (pl : List Byte) :
    (assemble pfx opc len c pl).length = if pl.length ≤ 27 then 32 else 5 + pl.length := by
  simp [assemble]; split <;> omega

/-- ASSEMBLE's result is valid exactly when the payload has at most 27 bytes (R143). -/
theorem validFrame_assemble (pfx opc len c : Byte) (pl : List Byte) :
    validFrame (assemble pfx opc len c pl) = decide (pl.length ≤ 27) := by
  rw [Bool.eq_iff_iff]
  simp only [validFrame, assemble_length, beq_iff_eq, decide_eq_true_eq]
  split <;> omega

/-- ASSEMBLE's bytes: header, payload, checksum, padding (R141). -/
theorem assemble_eq (pfx opc len c : Byte) (pl : List Byte) :
    assemble pfx opc len c pl = pfx :: len :: opc :: c ::
      (pl ++ (checksum (frameHead pfx opc len c pl) (4 + pl.length) :: zeros (27 - pl.length))) := by
  simp [assemble, frameHead]
  congr 1; omega

/-- A checksum depends on the bytes before its position only (R140). -/
theorem checksum_append (a b : List Byte) (p : Nat) (h : p ≤ a.length) : checksum (a ++ b) p = checksum a p := by
  simp [checksum, List.take_append_of_le_length h]

/-- PSM is false exactly when the payload has the declared length less 2 (R142). -/
theorem payloadMismatch_eq_false (len : Byte) (pl : List Byte) :
    payloadMismatch len pl = false ↔ pl.length + 2 = len.toNat := by simp [payloadMismatch]

end Sys2Proof.Machine
end

