-- ==== Sys2Proof/Laws/State.lean ====
section
/-! SUPPORT. What each update of the state leaves in each field: one lemma per field and update. -/

namespace Sys2Proof.Machine

open Sys2Proof

variable (s : State)

@[simp] theorem State.respond_ctr (rc : Rc) (w : Byte) (d : List Byte) : (s.respond rc w d).ctr = s.ctr := rfl
@[simp] theorem State.respond_initDone (rc : Rc) (w : Byte) (d : List Byte) : (s.respond rc w d).initDone = s.initDone := rfl
@[simp] theorem State.respond_status (rc : Rc) (w : Byte) (d : List Byte) : (s.respond rc w d).status = s.status := rfl
@[simp] theorem State.respond_ctrl (rc : Rc) (w : Byte) (d : List Byte) : (s.respond rc w d).ctrl = s.ctrl := rfl
@[simp] theorem State.respond_pt (rc : Rc) (w : Byte) (d : List Byte) : (s.respond rc w d).pt = s.pt := rfl
@[simp] theorem State.respond_tc (rc : Rc) (w : Byte) (d : List Byte) : (s.respond rc w d).tc = s.tc := rfl
@[simp] theorem State.respond_evq (rc : Rc) (w : Byte) (d : List Byte) : (s.respond rc w d).evq = s.evq := rfl
@[simp] theorem State.respond_cfg (rc : Rc) (w : Byte) (d : List Byte) : (s.respond rc w d).cfg = s.cfg := rfl
@[simp] theorem State.respond_hostq (rc : Rc) (w : Byte) (d : List Byte) : (s.respond rc w d).hostq = s.hostq := rfl
@[simp] theorem State.respond_rxq (rc : Rc) (w : Byte) (d : List Byte) : (s.respond rc w d).rxq = s.rxq := rfl
@[simp] theorem State.respond_rst (rc : Rc) (w : Byte) (d : List Byte) : (s.respond rc w d).rst = s.rst := rfl
@[simp] theorem State.respond_txAnswers (rc : Rc) (w : Byte) (d : List Byte) : (s.respond rc w d).txAnswers = s.txAnswers := rfl
@[simp] theorem State.respond_turns (rc : Rc) (w : Byte) (d : List Byte) : (s.respond rc w d).turns = s.turns := rfl
@[simp] theorem State.respond_draws (rc : Rc) (w : Byte) (d : List Byte) : (s.respond rc w d).draws = s.draws := rfl
@[simp] theorem State.respond_responses (rc : Rc) (w : Byte) (d : List Byte) : (s.respond rc w d).responses = s.responses ++ [rc.byte :: w :: d] := rfl
@[simp] theorem State.respond_txLog (rc : Rc) (w : Byte) (d : List Byte) : (s.respond rc w d).txLog = s.txLog := rfl

@[simp] theorem State.setFlag_ctr (f : Flag) : (s.setFlag f).ctr = s.ctr := rfl
@[simp] theorem State.setFlag_initDone (f : Flag) : (s.setFlag f).initDone = s.initDone := rfl
@[simp] theorem State.setFlag_status (f : Flag) : (s.setFlag f).status = withFlag s.status f := rfl
@[simp] theorem State.setFlag_ctrl (f : Flag) : (s.setFlag f).ctrl = s.ctrl := rfl
@[simp] theorem State.setFlag_pt (f : Flag) : (s.setFlag f).pt = s.pt := rfl
@[simp] theorem State.setFlag_tc (f : Flag) : (s.setFlag f).tc = s.tc := rfl
@[simp] theorem State.setFlag_evq (f : Flag) : (s.setFlag f).evq = s.evq := rfl
@[simp] theorem State.setFlag_cfg (f : Flag) : (s.setFlag f).cfg = s.cfg := rfl
@[simp] theorem State.setFlag_hostq (f : Flag) : (s.setFlag f).hostq = s.hostq := rfl
@[simp] theorem State.setFlag_rxq (f : Flag) : (s.setFlag f).rxq = s.rxq := rfl
@[simp] theorem State.setFlag_rst (f : Flag) : (s.setFlag f).rst = s.rst := rfl
@[simp] theorem State.setFlag_txAnswers (f : Flag) : (s.setFlag f).txAnswers = s.txAnswers := rfl
@[simp] theorem State.setFlag_turns (f : Flag) : (s.setFlag f).turns = s.turns := rfl
@[simp] theorem State.setFlag_draws (f : Flag) : (s.setFlag f).draws = s.draws := rfl
@[simp] theorem State.setFlag_responses (f : Flag) : (s.setFlag f).responses = s.responses := rfl
@[simp] theorem State.setFlag_txLog (f : Flag) : (s.setFlag f).txLog = s.txLog := rfl

@[simp] theorem State.dropFrame_ctr (r : DropReason) : (s.dropFrame r).ctr = s.ctr := rfl
@[simp] theorem State.dropFrame_initDone (r : DropReason) : (s.dropFrame r).initDone = s.initDone := rfl
@[simp] theorem State.dropFrame_status (r : DropReason) : (s.dropFrame r).status = withLastDrop (withFlag s.status .rxdrop) r.code := rfl
@[simp] theorem State.dropFrame_ctrl (r : DropReason) : (s.dropFrame r).ctrl = s.ctrl := rfl
@[simp] theorem State.dropFrame_pt (r : DropReason) : (s.dropFrame r).pt = s.pt := rfl
@[simp] theorem State.dropFrame_tc (r : DropReason) : (s.dropFrame r).tc = s.tc := rfl
@[simp] theorem State.dropFrame_evq (r : DropReason) : (s.dropFrame r).evq = s.evq := rfl
@[simp] theorem State.dropFrame_cfg (r : DropReason) : (s.dropFrame r).cfg = s.cfg := rfl
@[simp] theorem State.dropFrame_hostq (r : DropReason) : (s.dropFrame r).hostq = s.hostq := rfl
@[simp] theorem State.dropFrame_rxq (r : DropReason) : (s.dropFrame r).rxq = s.rxq := rfl
@[simp] theorem State.dropFrame_rst (r : DropReason) : (s.dropFrame r).rst = s.rst := rfl
@[simp] theorem State.dropFrame_txAnswers (r : DropReason) : (s.dropFrame r).txAnswers = s.txAnswers := rfl
@[simp] theorem State.dropFrame_turns (r : DropReason) : (s.dropFrame r).turns = s.turns := rfl
@[simp] theorem State.dropFrame_draws (r : DropReason) : (s.dropFrame r).draws = s.draws := rfl
@[simp] theorem State.dropFrame_responses (r : DropReason) : (s.dropFrame r).responses = s.responses := rfl
@[simp] theorem State.dropFrame_txLog (r : DropReason) : (s.dropFrame r).txLog = s.txLog := rfl

@[simp] theorem State.transmit_ctr (f : List Byte) : (s.transmit f).ctr = s.ctr := rfl
@[simp] theorem State.transmit_initDone (f : List Byte) : (s.transmit f).initDone = s.initDone := rfl
@[simp] theorem State.transmit_status (f : List Byte) : (s.transmit f).status = s.status := rfl
@[simp] theorem State.transmit_ctrl (f : List Byte) : (s.transmit f).ctrl = s.ctrl := rfl
@[simp] theorem State.transmit_pt (f : List Byte) : (s.transmit f).pt = s.pt := rfl
@[simp] theorem State.transmit_tc (f : List Byte) : (s.transmit f).tc = s.tc := rfl
@[simp] theorem State.transmit_evq (f : List Byte) : (s.transmit f).evq = s.evq := rfl
@[simp] theorem State.transmit_cfg (f : List Byte) : (s.transmit f).cfg = s.cfg := rfl
@[simp] theorem State.transmit_hostq (f : List Byte) : (s.transmit f).hostq = s.hostq := rfl
@[simp] theorem State.transmit_rxq (f : List Byte) : (s.transmit f).rxq = s.rxq := rfl
@[simp] theorem State.transmit_rst (f : List Byte) : (s.transmit f).rst = s.rst := rfl
@[simp] theorem State.transmit_txAnswers (f : List Byte) : (s.transmit f).txAnswers = s.txAnswers.tail := rfl
@[simp] theorem State.transmit_turns (f : List Byte) : (s.transmit f).turns = s.turns := rfl
@[simp] theorem State.transmit_draws (f : List Byte) : (s.transmit f).draws = if s.txAnswers.isEmpty then s.draws + 1 else s.draws := rfl
@[simp] theorem State.transmit_responses (f : List Byte) : (s.transmit f).responses = s.responses := rfl
@[simp] theorem State.transmit_txLog (f : List Byte) : (s.transmit f).txLog = s.txLog ++ [(f, s.nextTxAnswer)] := rfl

@[simp] theorem State.setPt_ctr (c : Byte) (e : PtEntry) : (s.setPt c e).ctr = s.ctr := rfl
@[simp] theorem State.setPt_initDone (c : Byte) (e : PtEntry) : (s.setPt c e).initDone = s.initDone := rfl
@[simp] theorem State.setPt_status (c : Byte) (e : PtEntry) : (s.setPt c e).status = s.status := rfl
@[simp] theorem State.setPt_ctrl (c : Byte) (e : PtEntry) : (s.setPt c e).ctrl = s.ctrl := rfl
@[simp] theorem State.setPt_pt (c : Byte) (e : PtEntry) : (s.setPt c e).pt = s.pt.set c.toNat e c.isLt := rfl
@[simp] theorem State.setPt_tc (c : Byte) (e : PtEntry) : (s.setPt c e).tc = s.tc := rfl
@[simp] theorem State.setPt_evq (c : Byte) (e : PtEntry) : (s.setPt c e).evq = s.evq := rfl
@[simp] theorem State.setPt_cfg (c : Byte) (e : PtEntry) : (s.setPt c e).cfg = s.cfg := rfl
@[simp] theorem State.setPt_hostq (c : Byte) (e : PtEntry) : (s.setPt c e).hostq = s.hostq := rfl
@[simp] theorem State.setPt_rxq (c : Byte) (e : PtEntry) : (s.setPt c e).rxq = s.rxq := rfl
@[simp] theorem State.setPt_rst (c : Byte) (e : PtEntry) : (s.setPt c e).rst = s.rst := rfl
@[simp] theorem State.setPt_txAnswers (c : Byte) (e : PtEntry) : (s.setPt c e).txAnswers = s.txAnswers := rfl
@[simp] theorem State.setPt_turns (c : Byte) (e : PtEntry) : (s.setPt c e).turns = s.turns := rfl
@[simp] theorem State.setPt_draws (c : Byte) (e : PtEntry) : (s.setPt c e).draws = s.draws := rfl
@[simp] theorem State.setPt_responses (c : Byte) (e : PtEntry) : (s.setPt c e).responses = s.responses := rfl
@[simp] theorem State.setPt_txLog (c : Byte) (e : PtEntry) : (s.setPt c e).txLog = s.txLog := rfl

@[simp] theorem State.clearPt_ctr (c : Byte) : (s.clearPt c).ctr = s.ctr := rfl
@[simp] theorem State.clearPt_initDone (c : Byte) : (s.clearPt c).initDone = s.initDone := rfl
@[simp] theorem State.clearPt_status (c : Byte) : (s.clearPt c).status = s.status := rfl
@[simp] theorem State.clearPt_ctrl (c : Byte) : (s.clearPt c).ctrl = s.ctrl := rfl
@[simp] theorem State.clearPt_pt (c : Byte) : (s.clearPt c).pt = s.pt.set c.toNat { s.ptAt c with valid := false } c.isLt := rfl
@[simp] theorem State.clearPt_tc (c : Byte) : (s.clearPt c).tc = s.tc := rfl
@[simp] theorem State.clearPt_evq (c : Byte) : (s.clearPt c).evq = s.evq := rfl
@[simp] theorem State.clearPt_cfg (c : Byte) : (s.clearPt c).cfg = s.cfg := rfl
@[simp] theorem State.clearPt_hostq (c : Byte) : (s.clearPt c).hostq = s.hostq := rfl
@[simp] theorem State.clearPt_rxq (c : Byte) : (s.clearPt c).rxq = s.rxq := rfl
@[simp] theorem State.clearPt_rst (c : Byte) : (s.clearPt c).rst = s.rst := rfl
@[simp] theorem State.clearPt_txAnswers (c : Byte) : (s.clearPt c).txAnswers = s.txAnswers := rfl
@[simp] theorem State.clearPt_turns (c : Byte) : (s.clearPt c).turns = s.turns := rfl
@[simp] theorem State.clearPt_draws (c : Byte) : (s.clearPt c).draws = s.draws := rfl
@[simp] theorem State.clearPt_responses (c : Byte) : (s.clearPt c).responses = s.responses := rfl
@[simp] theorem State.clearPt_txLog (c : Byte) : (s.clearPt c).txLog = s.txLog := rfl

@[simp] theorem State.push_ctr (pad : Byte) (a : Action) (u : Uid) (t : Option Tag) : (s.push pad a u t).ctr = s.ctr := rfl
@[simp] theorem State.push_initDone (pad : Byte) (a : Action) (u : Uid) (t : Option Tag) : (s.push pad a u t).initDone = s.initDone := rfl
@[simp] theorem State.push_status (pad : Byte) (a : Action) (u : Uid) (t : Option Tag) : (s.push pad a u t).status = s.status := rfl
@[simp] theorem State.push_ctrl (pad : Byte) (a : Action) (u : Uid) (t : Option Tag) : (s.push pad a u t).ctrl = s.ctrl := rfl
@[simp] theorem State.push_pt (pad : Byte) (a : Action) (u : Uid) (t : Option Tag) : (s.push pad a u t).pt = s.pt := rfl
@[simp] theorem State.push_tc (pad : Byte) (a : Action) (u : Uid) (t : Option Tag) : (s.push pad a u t).tc = s.tc := rfl
@[simp] theorem State.push_evq (pad : Byte) (a : Action) (u : Uid) (t : Option Tag) : (s.push pad a u t).evq = s.evq ++ [{ pad := pad, action := a, tag := t, device := s.cfg.deviceIndex, uid := u }] := rfl
@[simp] theorem State.push_cfg (pad : Byte) (a : Action) (u : Uid) (t : Option Tag) : (s.push pad a u t).cfg = s.cfg := rfl
@[simp] theorem State.push_hostq (pad : Byte) (a : Action) (u : Uid) (t : Option Tag) : (s.push pad a u t).hostq = s.hostq := rfl
@[simp] theorem State.push_rxq (pad : Byte) (a : Action) (u : Uid) (t : Option Tag) : (s.push pad a u t).rxq = s.rxq := rfl
@[simp] theorem State.push_rst (pad : Byte) (a : Action) (u : Uid) (t : Option Tag) : (s.push pad a u t).rst = s.rst := rfl
@[simp] theorem State.push_txAnswers (pad : Byte) (a : Action) (u : Uid) (t : Option Tag) : (s.push pad a u t).txAnswers = s.txAnswers := rfl
@[simp] theorem State.push_turns (pad : Byte) (a : Action) (u : Uid) (t : Option Tag) : (s.push pad a u t).turns = s.turns := rfl
@[simp] theorem State.push_draws (pad : Byte) (a : Action) (u : Uid) (t : Option Tag) : (s.push pad a u t).draws = s.draws := rfl
@[simp] theorem State.push_responses (pad : Byte) (a : Action) (u : Uid) (t : Option Tag) : (s.push pad a u t).responses = s.responses := rfl
@[simp] theorem State.push_txLog (pad : Byte) (a : Action) (u : Uid) (t : Option Tag) : (s.push pad a u t).txLog = s.txLog := rfl

@[simp] theorem State.useTurn_ctr : (s.useTurn).ctr = s.ctr := rfl
@[simp] theorem State.useTurn_initDone : (s.useTurn).initDone = s.initDone := rfl
@[simp] theorem State.useTurn_status : (s.useTurn).status = s.status := rfl
@[simp] theorem State.useTurn_ctrl : (s.useTurn).ctrl = s.ctrl := rfl
@[simp] theorem State.useTurn_pt : (s.useTurn).pt = s.pt := rfl
@[simp] theorem State.useTurn_tc : (s.useTurn).tc = s.tc := rfl
@[simp] theorem State.useTurn_evq : (s.useTurn).evq = s.evq := rfl
@[simp] theorem State.useTurn_cfg : (s.useTurn).cfg = s.cfg := rfl
@[simp] theorem State.useTurn_hostq : (s.useTurn).hostq = s.hostq := rfl
@[simp] theorem State.useTurn_rxq : (s.useTurn).rxq = s.rxq := rfl
@[simp] theorem State.useTurn_rst : (s.useTurn).rst = s.rst := rfl
@[simp] theorem State.useTurn_txAnswers : (s.useTurn).txAnswers = s.txAnswers := rfl
@[simp] theorem State.useTurn_turns : (s.useTurn).turns = s.turns.tail := rfl
@[simp] theorem State.useTurn_draws : (s.useTurn).draws = if s.turns.isEmpty then s.draws + 1 else s.draws := rfl
@[simp] theorem State.useTurn_responses : (s.useTurn).responses = s.responses := rfl
@[simp] theorem State.useTurn_txLog : (s.useTurn).txLog = s.txLog := rfl

@[simp] theorem State.setFlagIf_ctr (b : Bool) (f : Flag) : (s.setFlagIf b f).ctr = s.ctr := by cases b <;> rfl
@[simp] theorem State.setFlagIf_initDone (b : Bool) (f : Flag) : (s.setFlagIf b f).initDone = s.initDone := by cases b <;> rfl
@[simp] theorem State.setFlagIf_status (b : Bool) (f : Flag) : (s.setFlagIf b f).status = if b then withFlag s.status f else s.status := by
  cases b <;> rfl
@[simp] theorem State.setFlagIf_ctrl (b : Bool) (f : Flag) : (s.setFlagIf b f).ctrl = s.ctrl := by cases b <;> rfl
@[simp] theorem State.setFlagIf_pt (b : Bool) (f : Flag) : (s.setFlagIf b f).pt = s.pt := by cases b <;> rfl
@[simp] theorem State.setFlagIf_tc (b : Bool) (f : Flag) : (s.setFlagIf b f).tc = s.tc := by cases b <;> rfl
@[simp] theorem State.setFlagIf_evq (b : Bool) (f : Flag) : (s.setFlagIf b f).evq = s.evq := by cases b <;> rfl
@[simp] theorem State.setFlagIf_cfg (b : Bool) (f : Flag) : (s.setFlagIf b f).cfg = s.cfg := by cases b <;> rfl
@[simp] theorem State.setFlagIf_hostq (b : Bool) (f : Flag) : (s.setFlagIf b f).hostq = s.hostq := by cases b <;> rfl
@[simp] theorem State.setFlagIf_rxq (b : Bool) (f : Flag) : (s.setFlagIf b f).rxq = s.rxq := by cases b <;> rfl
@[simp] theorem State.setFlagIf_rst (b : Bool) (f : Flag) : (s.setFlagIf b f).rst = s.rst := by cases b <;> rfl
@[simp] theorem State.setFlagIf_txAnswers (b : Bool) (f : Flag) : (s.setFlagIf b f).txAnswers = s.txAnswers := by cases b <;> rfl
@[simp] theorem State.setFlagIf_turns (b : Bool) (f : Flag) : (s.setFlagIf b f).turns = s.turns := by cases b <;> rfl
@[simp] theorem State.setFlagIf_draws (b : Bool) (f : Flag) : (s.setFlagIf b f).draws = s.draws := by cases b <;> rfl
@[simp] theorem State.setFlagIf_responses (b : Bool) (f : Flag) : (s.setFlagIf b f).responses = s.responses := by cases b <;> rfl
@[simp] theorem State.setFlagIf_txLog (b : Bool) (f : Flag) : (s.setFlagIf b f).txLog = s.txLog := by cases b <;> rfl

@[simp] theorem State.resetCore_ctr : s.resetCore.ctr = 0x02 := rfl
@[simp] theorem State.resetCore_initDone : s.resetCore.initDone = false := rfl
@[simp] theorem State.resetCore_status : s.resetCore.status = 0 := rfl
@[simp] theorem State.resetCore_ctrl : s.resetCore.ctrl = 0 := rfl
@[simp] theorem State.resetCore_pt : s.resetCore.pt = Vector.replicate 256 PtEntry.blank := rfl
@[simp] theorem State.resetCore_tc : s.resetCore.tc = [] := rfl
@[simp] theorem State.resetCore_evq : s.resetCore.evq = [] := rfl
@[simp] theorem State.resetCore_cfg : s.resetCore.cfg = s.cfg := rfl
@[simp] theorem State.resetCore_hostq : s.resetCore.hostq = s.hostq.tail := rfl
@[simp] theorem State.resetCore_rxq : s.resetCore.rxq = s.rxq := rfl
@[simp] theorem State.resetCore_rst : s.resetCore.rst = false := rfl
@[simp] theorem State.resetCore_txAnswers : s.resetCore.txAnswers = s.txAnswers := rfl
@[simp] theorem State.resetCore_turns : s.resetCore.turns = s.turns := rfl
@[simp] theorem State.resetCore_draws : s.resetCore.draws = s.draws := rfl
@[simp] theorem State.resetCore_responses : s.resetCore.responses = s.responses := rfl
@[simp] theorem State.resetCore_txLog : s.resetCore.txLog = s.txLog := rfl

@[simp] theorem State.tcInsert_ctr (u : Uid) (t : Tag) : (s.tcInsert u t).ctr = s.ctr := by
  unfold State.tcInsert; split <;> [rfl; (split <;> rfl)]
@[simp] theorem State.tcInsert_initDone (u : Uid) (t : Tag) : (s.tcInsert u t).initDone = s.initDone := by
  unfold State.tcInsert; split <;> [rfl; (split <;> rfl)]
@[simp] theorem State.tcInsert_ctrl (u : Uid) (t : Tag) : (s.tcInsert u t).ctrl = s.ctrl := by
  unfold State.tcInsert; split <;> [rfl; (split <;> rfl)]
@[simp] theorem State.tcInsert_pt (u : Uid) (t : Tag) : (s.tcInsert u t).pt = s.pt := by
  unfold State.tcInsert; split <;> [rfl; (split <;> rfl)]
@[simp] theorem State.tcInsert_evq (u : Uid) (t : Tag) : (s.tcInsert u t).evq = s.evq := by
  unfold State.tcInsert; split <;> [rfl; (split <;> rfl)]
@[simp] theorem State.tcInsert_cfg (u : Uid) (t : Tag) : (s.tcInsert u t).cfg = s.cfg := by
  unfold State.tcInsert; split <;> [rfl; (split <;> rfl)]
@[simp] theorem State.tcInsert_hostq (u : Uid) (t : Tag) : (s.tcInsert u t).hostq = s.hostq := by
  unfold State.tcInsert; split <;> [rfl; (split <;> rfl)]
@[simp] theorem State.tcInsert_rxq (u : Uid) (t : Tag) : (s.tcInsert u t).rxq = s.rxq := by
  unfold State.tcInsert; split <;> [rfl; (split <;> rfl)]
@[simp] theorem State.tcInsert_rst (u : Uid) (t : Tag) : (s.tcInsert u t).rst = s.rst := by
  unfold State.tcInsert; split <;> [rfl; (split <;> rfl)]
@[simp] theorem State.tcInsert_txAnswers (u : Uid) (t : Tag) : (s.tcInsert u t).txAnswers = s.txAnswers := by
  unfold State.tcInsert; split <;> [rfl; (split <;> rfl)]
@[simp] theorem State.tcInsert_turns (u : Uid) (t : Tag) : (s.tcInsert u t).turns = s.turns := by
  unfold State.tcInsert; split <;> [rfl; (split <;> rfl)]
@[simp] theorem State.tcInsert_draws (u : Uid) (t : Tag) : (s.tcInsert u t).draws = s.draws := by
  unfold State.tcInsert; split <;> [rfl; (split <;> rfl)]
@[simp] theorem State.tcInsert_responses (u : Uid) (t : Tag) : (s.tcInsert u t).responses = s.responses := by
  unfold State.tcInsert; split <;> [rfl; (split <;> rfl)]
@[simp] theorem State.tcInsert_txLog (u : Uid) (t : Tag) : (s.tcInsert u t).txLog = s.txLog := by
  unfold State.tcInsert; split <;> [rfl; (split <;> rfl)]

end Sys2Proof.Machine
end

