-- ==== Sys2Proof/Laws/Ops.lean ====
section
/-! SUPPORT. One law per shared operation: what it can do, and what it leaves alone. -/

namespace Sys2Proof.Machine

open Sys2Proof

/-- R51's form. -/
theorem evqRoom_iff (s : State) : s.evqRoom = true ↔ s.evq.length < evqDepth s.cfg := by
  simp [State.evqRoom, evqDepth, List.isEmpty_iff]
  intro h; simp [h]

-- PT

theorem ptAt_eq (s : State) (c : Byte) : s.ptAt c = s.pt[c.toNat]'c.isLt := rfl

@[simp] theorem ptAt_setPt_same (s : State) (c : Byte) (e : PtEntry) : (s.setPt c e).ptAt c = e := by
  simp [State.ptAt]

theorem ptAt_setPt_other (s : State) (c d : Byte) (e : PtEntry) (h : d ≠ c) : (s.setPt c e).ptAt d = s.ptAt d := by
  have : c.toNat ≠ d.toNat := fun h' => h (BitVec.eq_of_toNat_eq h'.symm)
  simp [State.ptAt, Vector.getElem_set_ne _ _ this]

@[simp] theorem ptAt_clearPt_same (s : State) (c : Byte) : (s.clearPt c).ptAt c = { s.ptAt c with valid := false } :=
  ptAt_setPt_same ..

theorem ptAt_clearPt_other (s : State) (c d : Byte) (h : d ≠ c) : (s.clearPt c).ptAt d = s.ptAt d :=
  ptAt_setPt_other _ _ _ _ h

-- TC

@[simp] theorem cacheAdd_length (tc : List (Uid × Tag)) (u : Uid) (t : Tag) :
    (cacheAdd tc u t).length = tc.length + 1 := by
  induction tc with
  | nil => rfl
  | cons p rest ih => obtain ⟨v, x⟩ := p; simp only [cacheAdd]; split <;> simp [ih]

/-- An added uid is found, if it was not there. -/
theorem cacheFind_cacheAdd_same (tc : List (Uid × Tag)) (u : Uid) (t : Tag) (h : cacheFind tc u = none) :
    cacheFind (cacheAdd tc u t) u = some t := by
  induction tc with
  | nil => simp [cacheAdd, cacheFind]
  | cons p rest ih =>
    obtain ⟨v, x⟩ := p
    by_cases hv : v = u
    · simp [cacheFind, hv] at h
    · simp only [cacheFind, hv, if_false] at h
      simp only [cacheAdd]; split <;> simp [cacheFind, hv, ih h]

/-- Adding a uid leaves what is found for every other. -/
theorem cacheFind_cacheAdd_other (tc : List (Uid × Tag)) (u v : Uid) (t : Tag) (h : v ≠ u) :
    cacheFind (cacheAdd tc u t) v = cacheFind tc v := by
  induction tc with
  | nil => simp [cacheAdd, cacheFind, h.symm]
  | cons p rest ih =>
    obtain ⟨w, x⟩ := p
    simp only [cacheAdd]; split <;> simp [cacheFind, h.symm, ih]

theorem mem_cacheAdd (tc : List (Uid × Tag)) (u : Uid) (t : Tag) (p : Uid × Tag) :
    p ∈ cacheAdd tc u t ↔ p = (u, t) ∨ p ∈ tc := by
  induction tc with
  | nil => simp [cacheAdd]
  | cons q rest ih =>
    obtain ⟨w, x⟩ := q
    simp only [cacheAdd]; split <;> simp [ih]; tauto

/-- The order key distinguishes uids. -/
theorem uidKey_inj (u v : Uid) (h : uidKey u = uidKey v) : u = v := by
  have conv : ∀ w : Uid, uidKey w = ((((((w[0].toNat * 256 + w[1].toNat) * 256 + w[2].toNat) * 256 + w[3].toNat) * 256
      + w[4].toNat) * 256 + w[5].toNat) * 256 + w[6].toNat) := by
    intro w
    have : w.toList = [w[0], w[1], w[2], w[3], w[4], w[5], w[6]] := by
      apply List.ext_getElem <;> simp
      intro i hi; interval_cases i <;> rfl
    simp [uidKey, this]
  rw [conv, conv] at h
  ext1 i hi
  apply BitVec.eq_of_toNat_eq
  have b := fun w : Byte => w.isLt
  have := b u[0]; have := b u[1]; have := b u[2]; have := b u[3]; have := b u[4]; have := b u[5]; have := b u[6]
  have := b v[0]; have := b v[1]; have := b v[2]; have := b v[3]; have := b v[4]; have := b v[5]; have := b v[6]
  interval_cases i <;> omega

/-- A uid that is not found stands nowhere. -/
theorem cacheFind_eq_none (tc : List (Uid × Tag)) (u : Uid) (h : cacheFind tc u = none) : ∀ p ∈ tc, p.1 ≠ u := by
  induction tc with
  | nil => simp
  | cons q rest ih =>
    obtain ⟨w, x⟩ := q
    by_cases hw : w = u
    · simp [cacheFind, hw] at h
    · simp only [cacheFind, hw, if_false] at h
      simp [hw]
      exact fun a b => ih h (a, b)

/-- Adding a uid that is not there keeps TC's canonical form: strictly rising by uid. -/
theorem cacheAdd_sorted (tc : List (Uid × Tag)) (u : Uid) (t : Tag) (hn : cacheFind tc u = none)
    (hs : tc.Pairwise fun a b => uidKey a.1 < uidKey b.1) :
    (cacheAdd tc u t).Pairwise fun a b => uidKey a.1 < uidKey b.1 := by
  induction tc with
  | nil => simp [cacheAdd]
  | cons q rest ih =>
    obtain ⟨w, x⟩ := q
    have hw : w ≠ u := cacheFind_eq_none _ _ hn (w, x) (by simp)
    rw [List.pairwise_cons] at hs
    simp only [cacheAdd]; split <;> rename_i hlt
    · refine List.pairwise_cons.2 ⟨fun p hp => ?_, List.pairwise_cons.2 hs⟩
      rcases List.mem_cons.1 hp with rfl | hp
      · exact hlt
      · exact lt_trans hlt (hs.1 p hp)
    · refine List.pairwise_cons.2 ⟨fun p hp => ?_, ih (by simpa [cacheFind, hw] using hn) hs.2⟩
      rcases (mem_cacheAdd ..).1 hp with rfl | hp
      · exact lt_of_le_of_ne (not_lt.1 hlt) fun h => hw (uidKey_inj _ _ h)
      · exact hs.1 p hp

/-- TCInsert does one of three things (R225). -/
theorem tcInsert_cases (s : State) (u : Uid) (t : Tag) :
    (s.tcLookup u ≠ none ∧ s.tcInsert u t = s) ∨
    (s.tcLookup u = none ∧ s.cfg.tcCapacity = some s.tc.length ∧ s.tcInsert u t = s.setFlag .tcfull) ∨
    (s.tcLookup u = none ∧ s.cfg.tcCapacity ≠ some s.tc.length ∧ s.tcInsert u t = { s with tc := cacheAdd s.tc u t }) := by
  unfold State.tcInsert
  split <;> rename_i h
  · exact .inl ⟨by simp [h], rfl⟩
  · split <;> rename_i hf
    · exact .inr (.inl ⟨h, by simpa [cacheFull] using hf, rfl⟩)
    · exact .inr (.inr ⟨h, by simpa [cacheFull] using hf, rfl⟩)

-- Transmit and SEND

/-- What a checked transmission can do (R144, R150): nothing sent, or the frame sent with TX's answer. -/
theorem transmitChecked_cases (s : State) (f : List Byte) (psm : Bool) :
    (validFrame f = false ∧ s.transmitChecked f psm = (.lenErr, (s.setFlagIf psm .psm).setFlag .proto)) ∨
    (validFrame f = true ∧ s.nextTxAnswer = .err ∧
      s.transmitChecked f psm = (.txFail, ((s.setFlagIf psm .psm).transmit f).setFlag .txerr)) ∨
    (validFrame f = true ∧ s.nextTxAnswer = .ok ∧
      s.transmitChecked f psm = (.sent, (s.setFlagIf psm .psm).transmit f)) := by
  have h : (s.setFlagIf psm .psm).nextTxAnswer = s.nextTxAnswer := by cases psm <;> rfl
  unfold State.transmitChecked
  simp only [h]
  split <;> [skip; exact .inl ⟨by simp_all, rfl⟩]
  split <;> simp_all

/-- What SEND can do (R144), by its three ends; the counter is used up in each. -/
theorem send_cases (s : State) (opc len : Byte) (pl : List Byte) :
    (28 ≤ pl.length ∧ s.send opc len pl = ⟨s.ctr, .lenErr, payloadMismatch len pl,
      (State.setFlagIf { s with ctr := s.ctr + 1 } (payloadMismatch len pl) .psm).setFlag .proto⟩) ∨
    (pl.length ≤ 27 ∧ s.nextTxAnswer = .err ∧ s.send opc len pl = ⟨s.ctr, .txFail, payloadMismatch len pl,
      ((State.setFlagIf { s with ctr := s.ctr + 1 } (payloadMismatch len pl) .psm).transmit
        (assemble 0x55 opc len s.ctr pl)).setFlag .txerr⟩) ∨
    (pl.length ≤ 27 ∧ s.nextTxAnswer = .ok ∧ s.send opc len pl = ⟨s.ctr, .sent, payloadMismatch len pl,
      (State.setFlagIf { s with ctr := s.ctr + 1 } (payloadMismatch len pl) .psm).transmit
        (assemble 0x55 opc len s.ctr pl)⟩) := by
  have hs : s.send opc len pl =
      let r := State.transmitChecked { s with ctr := s.ctr + 1 } (assemble 0x55 opc len s.ctr pl) (payloadMismatch len pl)
      ⟨s.ctr, r.1, payloadMismatch len pl, r.2⟩ := rfl
  rw [hs]
  rcases transmitChecked_cases { s with ctr := s.ctr + 1 } (assemble 0x55 opc len s.ctr pl) (payloadMismatch len pl)
    with ⟨hv, h⟩ | ⟨hv, ha, h⟩ | ⟨hv, ha, h⟩ <;> rw [validFrame_assemble] at hv <;> simp at hv
  · exact .inl ⟨by omega, by rw [h]⟩
  · exact .inr (.inl ⟨hv, ha, by rw [h]⟩)
  · exact .inr (.inr ⟨hv, ha, by rw [h]⟩)

-- The pre-checks of an inbound frame

/-- PRECHECK does one of three things (R212). -/
theorem afterPrecheck_cases (s : State) (f : Frame) (body : State → State) :
    (s.initDone = false ∧ s.afterPrecheck f body = s.dropFrame .notInit) ∨
    (s.initDone = true ∧ s.rxckEn = true ∧ (verify f).1 = false ∧
      s.afterPrecheck f body = (s.setFlag .rxcksum).dropFrame .cksum) ∨
    (s.initDone = true ∧ (s.rxckEn = true → (verify f).1 = true) ∧ s.afterPrecheck f body = body s) := by
  unfold State.afterPrecheck
  cases hi : s.initDone <;> cases hr : s.rxckEn <;> cases hv : (verify f).1 <;> simp

/-- MATCH does one of three things (R219). -/
theorem afterMatch_cases (s : State) (c : Byte) (want : Stage) (body : PtEntry → State → State) :
    ((s.ptAt c).valid = false ∧ s.afterMatch c want body = s.dropFrame .noPending) ∨
    ((s.ptAt c).valid = true ∧ (s.ptAt c).stage ≠ want ∧ s.afterMatch c want body = s.dropFrame .stage) ∨
    ((s.ptAt c).valid = true ∧ (s.ptAt c).stage = want ∧ s.afterMatch c want body = body (s.ptAt c) s) := by
  unfold State.afterMatch
  cases hv : (s.ptAt c).valid <;> by_cases hw : (s.ptAt c).stage = want <;> simp [hw]

-- The next event

/-- Taking the next event changes nothing but what its agent offered and the draw. -/
theorem nextEvent_tuple (s : State) :
    s.nextEvent.2 = { s with hostq := s.nextEvent.2.hostq, rxq := s.nextEvent.2.rxq, turns := s.nextEvent.2.turns
                             draws := s.nextEvent.2.draws } := by
  unfold State.nextEvent
  split <;> [rfl; split] <;> first | rfl | (split <;> rfl)

@[simp] theorem nextEvent_ctr (s : State) : s.nextEvent.2.ctr = s.ctr := by rw [nextEvent_tuple]
@[simp] theorem nextEvent_initDone (s : State) : s.nextEvent.2.initDone = s.initDone := by rw [nextEvent_tuple]
@[simp] theorem nextEvent_status (s : State) : s.nextEvent.2.status = s.status := by rw [nextEvent_tuple]
@[simp] theorem nextEvent_ctrl (s : State) : s.nextEvent.2.ctrl = s.ctrl := by rw [nextEvent_tuple]
@[simp] theorem nextEvent_pt (s : State) : s.nextEvent.2.pt = s.pt := by rw [nextEvent_tuple]
@[simp] theorem nextEvent_tc (s : State) : s.nextEvent.2.tc = s.tc := by rw [nextEvent_tuple]
@[simp] theorem nextEvent_evq (s : State) : s.nextEvent.2.evq = s.evq := by rw [nextEvent_tuple]
@[simp] theorem nextEvent_cfg (s : State) : s.nextEvent.2.cfg = s.cfg := by rw [nextEvent_tuple]
@[simp] theorem nextEvent_rst (s : State) : s.nextEvent.2.rst = s.rst := by rw [nextEvent_tuple]
@[simp] theorem nextEvent_txAnswers (s : State) : s.nextEvent.2.txAnswers = s.txAnswers := by rw [nextEvent_tuple]
@[simp] theorem nextEvent_responses (s : State) : s.nextEvent.2.responses = s.responses := by rw [nextEvent_tuple]
@[simp] theorem nextEvent_txLog (s : State) : s.nextEvent.2.txLog = s.txLog := by rw [nextEvent_tuple]

/-- The reset input, and only it, makes the next event a reset (R310). -/
theorem nextEvent_reset (s : State) : s.nextEvent.1 = .reset ↔ s.rst = true := by
  unfold State.nextEvent
  split <;> [simp_all; split] <;> simp_all
  split <;> simp

/-- Quiescence leaves the whole state (R324). -/
theorem nextEvent_idle (s : State) (h : s.nextEvent.1 = .idle) : s.nextEvent.2 = s := by
  revert h
  unfold State.nextEvent
  split <;> [simp; split] <;> simp
  split <;> simp

/-- A frame is taken only while EVQ has room (R51). -/
theorem nextEvent_frame (s : State) (f : Frame) (h : s.nextEvent.1 = .frame f) :
    s.evq.length < evqDepth s.cfg ∧ ∃ fs, s.rxq = f :: fs := by
  rw [← evqRoom_iff]
  unfold State.nextEvent at h
  split at h <;> [cases h; split at h] <;> simp_all
  split at h <;> simp_all

/-- A host item is taken from the front of HOST's. -/
theorem nextEvent_host (s : State) (x : HostItem) (h : s.nextEvent.1 = .host x) : s.hostq = x :: s.nextEvent.2.hostq := by
  revert h
  unfold State.nextEvent
  split <;> [simp; split] <;> simp_all
  split <;> simp_all

/-- What a step can do (R48, R259, R310, R324): a reset, nothing, the refusal of a request, the refusal of what is no command,
or one instruction. -/
theorem step_cases (s : State) :
    (s.rst = true ∧ step s = .next s.nextEvent.2.resetCore) ∨
    (s.rst = false ∧ step s = .next s) ∨
    (s.rst = false ∧ ∃ b e, s.nextEvent.1 = .host (.request b) ∧ decodeRequest b = .rejected e ∧
      step s = .next (s.nextEvent.2.respondRejected e)) ∨
    (s.rst = false ∧ (∃ f hs e, s.hostq = .command f :: hs ∧ decodeCommand s.cfg f.toList = .rejected e) ∧
      step s = .refused .notACommandFrame) ∨
    (s.rst = false ∧ ∃ i, step s = exec i s.nextEvent.2 ∧
      ((∃ f, s.nextEvent.1 = .frame f ∧ i = decodeFrame f) ∨
       (∃ b, s.nextEvent.1 = .host (.request b) ∧ decodeRequest b = .ok i) ∨
       (∃ f, s.nextEvent.1 = .host (.command f) ∧ decodeCommand s.nextEvent.2.cfg f.toList = .ok i))) := by
  have hr := nextEvent_reset s
  have hi := nextEvent_idle s
  have hh := nextEvent_host s
  have hc := nextEvent_cfg s
  unfold step
  revert hr hi hh hc
  generalize s.nextEvent = p
  obtain ⟨e, t⟩ := p
  intro hr hi hh hc
  have nr : e ≠ .reset → s.rst = false := fun h => Bool.eq_false_iff.2 fun hb => h (hr.2 hb)
  match e with
  | .reset => exact .inl ⟨hr.1 rfl, rfl⟩
  | .idle => exact .inr (.inl ⟨nr (by simp), by rw [← hi rfl]⟩)
  | .frame f => exact .inr (.inr (.inr (.inr ⟨nr (by simp), decodeFrame f, rfl, .inl ⟨f, rfl, rfl⟩⟩)))
  | .host (.request b) =>
    simp only
    cases hd : decodeRequest b with
    | ok i => exact .inr (.inr (.inr (.inr ⟨nr (by simp), i, rfl, .inr (.inl ⟨b, rfl, hd⟩)⟩)))
    | rejected e => exact .inr (.inr (.inl ⟨nr (by simp), b, e, rfl, hd, rfl⟩))
  | .host (.command f) =>
    simp only
    cases hd : decodeCommand t.cfg f.toList with
    | ok i => exact .inr (.inr (.inr (.inr ⟨nr (by simp), i, rfl, .inr (.inr ⟨f, rfl, hd⟩)⟩)))
    | rejected e =>
      exact .inr (.inr (.inr (.inl ⟨nr (by simp), ⟨f, _, e, hh _ rfl, by rw [← hc]; exact hd⟩, rfl⟩)))

end Sys2Proof.Machine
end

