-- ==== Sys2Proof/Laws/Correlator.lean ====
section
/-! SUPPORT. Laws of the correlator: when the pre-checks and the matching let a frame pass, the fields of a frame byte by byte,
and what an event frame does by its pad and its action. -/

namespace Sys2Proof.Machine

open Sys2Proof

/-- A frame passes the pre-checks after INIT when RXCK_EN is 0 or it verifies (R212). -/
theorem afterPrecheck_passes (s : State) (f : Frame) (body : State → State) (h : s.initDone = true)
    (hv : s.rxckEn = true → (verify f).1 = true) : s.afterPrecheck f body = body s := by
  rcases afterPrecheck_cases s f body with ⟨hi, -⟩ | ⟨-, hr, hb, -⟩ | ⟨-, -, e⟩
  · simp [h] at hi
  · simp [hv hr] at hb
  · exact e

/-- A valid entry of the wanted stage matches (R219). -/
theorem afterMatch_passes (s : State) (c : Byte) (want : Stage) (body : PtEntry → State → State)
    (hv : (s.ptAt c).valid = true) (hs : (s.ptAt c).stage = want) : s.afterMatch c want body = body (s.ptAt c) s := by
  rcases afterMatch_cases s c want body with ⟨h, -⟩ | ⟨-, h, -⟩ | ⟨-, -, e⟩
  · simp [hv] at h
  · exact absurd hs h
  · exact e

/-- The four pad addresses of R97. -/
theorem knownPad_iff (cfg : Cfg) (p : Byte) :
    knownPad cfg p = true ↔ p ∈ [cfg.padLeft, 0x01, cfg.padRight, cfg.padAll] := by
  simp [knownPad, padCenter, or_assoc]

/-- An operand that lies within a frame, byte by byte. -/
theorem bytesAt_frame (n k i : Nat) (f : Frame) (hi : i < n) (h : k + i < 32) :
    (bytesAt n f.toList k)[i] = f[k + i] := by
  rw [bytesAt_getElem, List.getD_eq_getElem _ _ (by simpa using h), Vector.getElem_toList]

/-- The uid of an event frame (R95). -/
theorem eventUid_eq (f : Frame) : eventUid f = #v[f[6], f[7], f[8], f[9], f[10], f[11], f[12]] := by
  ext1 i hi
  rw [eventUid, bytesAt_frame _ _ _ _ _ (by omega)]
  interval_cases i <;> rfl

/-- The block of a LIST-MODEL reply (R98). -/
theorem replyBlock_eq (f : Frame) : replyBlock f = #v[f[4], f[5], f[6], f[7], f[8], f[9], f[10], f[11]] := by
  ext1 i hi
  rw [replyBlock, bytesAt_frame _ _ _ _ _ (by omega)]
  interval_cases i <;> rfl

/-- What an event frame does, by its pad and then its action (R214). -/
theorem rxEvent_cases (s : State) (f : Frame) :
    (knownPad s.cfg (eventPad s.cfg f) = false ∧ s.rxEvent f = s.dropFrame .badPad) ∨
    (knownPad s.cfg (eventPad s.cfg f) = true ∧ eventAction f = 0x01 ∧
      s.rxEvent f = s.eventAdded (eventPad s.cfg f) (eventIdx f) (eventUid f)) ∨
    (knownPad s.cfg (eventPad s.cfg f) = true ∧ eventAction f ≠ 0x01 ∧ eventAction f = s.cfg.actRemoved ∧
      s.rxEvent f = s.eventRemoved (eventPad s.cfg f) (eventUid f)) ∨
    (knownPad s.cfg (eventPad s.cfg f) = true ∧ eventAction f ≠ 0x01 ∧ eventAction f ≠ s.cfg.actRemoved ∧
      s.rxEvent f = s.dropFrame .badAction) := by
  have ha : actAdded = 0x01 := rfl
  unfold State.rxEvent
  rw [ha]
  split <;> [exact .inl ⟨‹_›, rfl⟩; skip]
  rename_i hp
  have hp := Bool.eq_true_of_not_eq_false hp
  split <;> [exact .inr (.inl ⟨hp, ‹_›, rfl⟩); skip]
  split
  · exact .inr (.inr (.inl ⟨hp, ‹_›, ‹_›, rfl⟩))
  · exact .inr (.inr (.inr ⟨hp, ‹_›, ‹_›, rfl⟩))

end Sys2Proof.Machine
end

