-- ==== Sys2Proof/Laws/Exec.lean ====
section
/-! SUPPORT. Frames of the compound operations: the fields that SEND, a follow-up, a host send, an identification's end and the
receive step's parts leave as they were; and that every instruction answers a next state. -/

namespace Sys2Proof.Machine

open Sys2Proof

variable (s : State)

@[simp] theorem State.send_next_initDone (opc len : Byte) (pl : List Byte) : (s.send opc len pl).next.initDone = s.initDone := by
  rcases send_cases s opc len pl with ⟨-, h⟩ | ⟨-, -, h⟩ | ⟨-, -, h⟩ <;> rw [h] <;> simp
@[simp] theorem State.send_next_ctrl (opc len : Byte) (pl : List Byte) : (s.send opc len pl).next.ctrl = s.ctrl := by
  rcases send_cases s opc len pl with ⟨-, h⟩ | ⟨-, -, h⟩ | ⟨-, -, h⟩ <;> rw [h] <;> simp
@[simp] theorem State.send_next_pt (opc len : Byte) (pl : List Byte) : (s.send opc len pl).next.pt = s.pt := by
  rcases send_cases s opc len pl with ⟨-, h⟩ | ⟨-, -, h⟩ | ⟨-, -, h⟩ <;> rw [h] <;> simp
@[simp] theorem State.send_next_tc (opc len : Byte) (pl : List Byte) : (s.send opc len pl).next.tc = s.tc := by
  rcases send_cases s opc len pl with ⟨-, h⟩ | ⟨-, -, h⟩ | ⟨-, -, h⟩ <;> rw [h] <;> simp
@[simp] theorem State.send_next_evq (opc len : Byte) (pl : List Byte) : (s.send opc len pl).next.evq = s.evq := by
  rcases send_cases s opc len pl with ⟨-, h⟩ | ⟨-, -, h⟩ | ⟨-, -, h⟩ <;> rw [h] <;> simp
@[simp] theorem State.send_next_cfg (opc len : Byte) (pl : List Byte) : (s.send opc len pl).next.cfg = s.cfg := by
  rcases send_cases s opc len pl with ⟨-, h⟩ | ⟨-, -, h⟩ | ⟨-, -, h⟩ <;> rw [h] <;> simp
@[simp] theorem State.send_next_hostq (opc len : Byte) (pl : List Byte) : (s.send opc len pl).next.hostq = s.hostq := by
  rcases send_cases s opc len pl with ⟨-, h⟩ | ⟨-, -, h⟩ | ⟨-, -, h⟩ <;> rw [h] <;> simp
@[simp] theorem State.send_next_rxq (opc len : Byte) (pl : List Byte) : (s.send opc len pl).next.rxq = s.rxq := by
  rcases send_cases s opc len pl with ⟨-, h⟩ | ⟨-, -, h⟩ | ⟨-, -, h⟩ <;> rw [h] <;> simp
@[simp] theorem State.send_next_rst (opc len : Byte) (pl : List Byte) : (s.send opc len pl).next.rst = s.rst := by
  rcases send_cases s opc len pl with ⟨-, h⟩ | ⟨-, -, h⟩ | ⟨-, -, h⟩ <;> rw [h] <;> simp
@[simp] theorem State.send_next_turns (opc len : Byte) (pl : List Byte) : (s.send opc len pl).next.turns = s.turns := by
  rcases send_cases s opc len pl with ⟨-, h⟩ | ⟨-, -, h⟩ | ⟨-, -, h⟩ <;> rw [h] <;> simp
@[simp] theorem State.send_next_responses (opc len : Byte) (pl : List Byte) : (s.send opc len pl).next.responses = s.responses := by
  rcases send_cases s opc len pl with ⟨-, h⟩ | ⟨-, -, h⟩ | ⟨-, -, h⟩ <;> rw [h] <;> simp

@[simp] theorem State.send_next_ctr (opc len : Byte) (pl : List Byte) : (s.send opc len pl).next.ctr = s.ctr + 1 := by
  rcases send_cases s opc len pl with ⟨-, h⟩ | ⟨-, -, h⟩ | ⟨-, -, h⟩ <;> rw [h] <;> simp

@[simp] theorem State.send_c (opc len : Byte) (pl : List Byte) : (s.send opc len pl).c = s.ctr := rfl

/-- SEND passes at most one frame to Transmit, of 32 bytes and with TX's answer (R143, R144). -/
theorem State.send_next_txLog (opc len : Byte) (pl : List Byte) :
    (s.send opc len pl).next.txLog = s.txLog ∨
    (pl.length ≤ 27 ∧ (s.send opc len pl).next.txLog = s.txLog ++ [(assemble 0x55 opc len s.ctr pl, s.nextTxAnswer)]) := by
  rcases send_cases s opc len pl with ⟨-, h⟩ | ⟨hl, -, h⟩ | ⟨hl, -, h⟩ <;> rw [h]
  · simp
  all_goals exact .inr ⟨hl, by simp [State.nextTxAnswer]⟩

@[simp] theorem State.hostSend_ctrl (opc len : Byte) (pl : List Byte) : (s.hostSend opc len pl).ctrl = s.ctrl := by
  simp [State.hostSend]
@[simp] theorem State.hostCommand_ctrl (k : Nat) (pl : List Byte) : (s.hostCommand k pl).ctrl = s.ctrl := by
  unfold State.hostCommand; split <;> [skip; split] <;> simp
@[simp] theorem State.hostSend_pt (opc len : Byte) (pl : List Byte) : (s.hostSend opc len pl).pt = s.pt := by
  simp [State.hostSend]
@[simp] theorem State.hostCommand_pt (k : Nat) (pl : List Byte) : (s.hostCommand k pl).pt = s.pt := by
  unfold State.hostCommand; split <;> [skip; split] <;> simp
@[simp] theorem State.hostSend_tc (opc len : Byte) (pl : List Byte) : (s.hostSend opc len pl).tc = s.tc := by
  simp [State.hostSend]
@[simp] theorem State.hostCommand_tc (k : Nat) (pl : List Byte) : (s.hostCommand k pl).tc = s.tc := by
  unfold State.hostCommand; split <;> [skip; split] <;> simp
@[simp] theorem State.hostSend_evq (opc len : Byte) (pl : List Byte) : (s.hostSend opc len pl).evq = s.evq := by
  simp [State.hostSend]
@[simp] theorem State.hostCommand_evq (k : Nat) (pl : List Byte) : (s.hostCommand k pl).evq = s.evq := by
  unfold State.hostCommand; split <;> [skip; split] <;> simp
@[simp] theorem State.hostSend_cfg (opc len : Byte) (pl : List Byte) : (s.hostSend opc len pl).cfg = s.cfg := by
  simp [State.hostSend]
@[simp] theorem State.hostCommand_cfg (k : Nat) (pl : List Byte) : (s.hostCommand k pl).cfg = s.cfg := by
  unfold State.hostCommand; split <;> [skip; split] <;> simp
@[simp] theorem State.hostSend_hostq (opc len : Byte) (pl : List Byte) : (s.hostSend opc len pl).hostq = s.hostq := by
  simp [State.hostSend]
@[simp] theorem State.hostCommand_hostq (k : Nat) (pl : List Byte) : (s.hostCommand k pl).hostq = s.hostq := by
  unfold State.hostCommand; split <;> [skip; split] <;> simp
@[simp] theorem State.hostSend_rxq (opc len : Byte) (pl : List Byte) : (s.hostSend opc len pl).rxq = s.rxq := by
  simp [State.hostSend]
@[simp] theorem State.hostCommand_rxq (k : Nat) (pl : List Byte) : (s.hostCommand k pl).rxq = s.rxq := by
  unfold State.hostCommand; split <;> [skip; split] <;> simp
@[simp] theorem State.hostSend_rst (opc len : Byte) (pl : List Byte) : (s.hostSend opc len pl).rst = s.rst := by
  simp [State.hostSend]
@[simp] theorem State.hostCommand_rst (k : Nat) (pl : List Byte) : (s.hostCommand k pl).rst = s.rst := by
  unfold State.hostCommand; split <;> [skip; split] <;> simp
@[simp] theorem State.hostSend_turns (opc len : Byte) (pl : List Byte) : (s.hostSend opc len pl).turns = s.turns := by
  simp [State.hostSend]
@[simp] theorem State.hostCommand_turns (k : Nat) (pl : List Byte) : (s.hostCommand k pl).turns = s.turns := by
  unfold State.hostCommand; split <;> [skip; split] <;> simp
@[simp] theorem State.hostSend_initDone (opc len : Byte) (pl : List Byte) : (s.hostSend opc len pl).initDone = s.initDone := by
  simp [State.hostSend]
@[simp] theorem State.hostCommand_initDone (k : Nat) (pl : List Byte) : (s.hostCommand k pl).initDone = s.initDone := by
  unfold State.hostCommand; split <;> [skip; split] <;> simp
@[simp] theorem State.hostInit_ctr : s.hostInit.ctr = s.ctr := by
  unfold State.hostInit
  split <;> [skip; (rcases transmitChecked_cases s (initFrame s.cfg) (payloadMismatch (catalogRow s.cfg 0x09).len s.cfg.initPayload)
    with ⟨-, h⟩ | ⟨-, -, h⟩ | ⟨-, -, h⟩)] <;> simp [*]
@[simp] theorem State.hostInit_ctrl : s.hostInit.ctrl = s.ctrl := by
  unfold State.hostInit
  split <;> [skip; (rcases transmitChecked_cases s (initFrame s.cfg) (payloadMismatch (catalogRow s.cfg 0x09).len s.cfg.initPayload)
    with ⟨-, h⟩ | ⟨-, -, h⟩ | ⟨-, -, h⟩)] <;> simp [*]
@[simp] theorem State.hostInit_pt : s.hostInit.pt = s.pt := by
  unfold State.hostInit
  split <;> [skip; (rcases transmitChecked_cases s (initFrame s.cfg) (payloadMismatch (catalogRow s.cfg 0x09).len s.cfg.initPayload)
    with ⟨-, h⟩ | ⟨-, -, h⟩ | ⟨-, -, h⟩)] <;> simp [*]
@[simp] theorem State.hostInit_tc : s.hostInit.tc = s.tc := by
  unfold State.hostInit
  split <;> [skip; (rcases transmitChecked_cases s (initFrame s.cfg) (payloadMismatch (catalogRow s.cfg 0x09).len s.cfg.initPayload)
    with ⟨-, h⟩ | ⟨-, -, h⟩ | ⟨-, -, h⟩)] <;> simp [*]
@[simp] theorem State.hostInit_evq : s.hostInit.evq = s.evq := by
  unfold State.hostInit
  split <;> [skip; (rcases transmitChecked_cases s (initFrame s.cfg) (payloadMismatch (catalogRow s.cfg 0x09).len s.cfg.initPayload)
    with ⟨-, h⟩ | ⟨-, -, h⟩ | ⟨-, -, h⟩)] <;> simp [*]
@[simp] theorem State.hostInit_cfg : s.hostInit.cfg = s.cfg := by
  unfold State.hostInit
  split <;> [skip; (rcases transmitChecked_cases s (initFrame s.cfg) (payloadMismatch (catalogRow s.cfg 0x09).len s.cfg.initPayload)
    with ⟨-, h⟩ | ⟨-, -, h⟩ | ⟨-, -, h⟩)] <;> simp [*]
@[simp] theorem State.hostInit_hostq : s.hostInit.hostq = s.hostq := by
  unfold State.hostInit
  split <;> [skip; (rcases transmitChecked_cases s (initFrame s.cfg) (payloadMismatch (catalogRow s.cfg 0x09).len s.cfg.initPayload)
    with ⟨-, h⟩ | ⟨-, -, h⟩ | ⟨-, -, h⟩)] <;> simp [*]
@[simp] theorem State.hostInit_rxq : s.hostInit.rxq = s.rxq := by
  unfold State.hostInit
  split <;> [skip; (rcases transmitChecked_cases s (initFrame s.cfg) (payloadMismatch (catalogRow s.cfg 0x09).len s.cfg.initPayload)
    with ⟨-, h⟩ | ⟨-, -, h⟩ | ⟨-, -, h⟩)] <;> simp [*]
@[simp] theorem State.hostInit_rst : s.hostInit.rst = s.rst := by
  unfold State.hostInit
  split <;> [skip; (rcases transmitChecked_cases s (initFrame s.cfg) (payloadMismatch (catalogRow s.cfg 0x09).len s.cfg.initPayload)
    with ⟨-, h⟩ | ⟨-, -, h⟩ | ⟨-, -, h⟩)] <;> simp [*]
@[simp] theorem State.hostInit_turns : s.hostInit.turns = s.turns := by
  unfold State.hostInit
  split <;> [skip; (rcases transmitChecked_cases s (initFrame s.cfg) (payloadMismatch (catalogRow s.cfg 0x09).len s.cfg.initPayload)
    with ⟨-, h⟩ | ⟨-, -, h⟩ | ⟨-, -, h⟩)] <;> simp [*]

@[simp] theorem State.followup_initDone (k : Nat) (pl : List Byte) (e : PtEntry) : (s.followup k pl e).initDone = s.initDone := by
  unfold State.followup; dsimp only; split <;> simp
@[simp] theorem State.followup_ctrl (k : Nat) (pl : List Byte) (e : PtEntry) : (s.followup k pl e).ctrl = s.ctrl := by
  unfold State.followup; dsimp only; split <;> simp
@[simp] theorem State.followup_tc (k : Nat) (pl : List Byte) (e : PtEntry) : (s.followup k pl e).tc = s.tc := by
  unfold State.followup; dsimp only; split <;> simp
@[simp] theorem State.followup_evq (k : Nat) (pl : List Byte) (e : PtEntry) : (s.followup k pl e).evq = s.evq := by
  unfold State.followup; dsimp only; split <;> simp
@[simp] theorem State.followup_cfg (k : Nat) (pl : List Byte) (e : PtEntry) : (s.followup k pl e).cfg = s.cfg := by
  unfold State.followup; dsimp only; split <;> simp
@[simp] theorem State.followup_hostq (k : Nat) (pl : List Byte) (e : PtEntry) : (s.followup k pl e).hostq = s.hostq := by
  unfold State.followup; dsimp only; split <;> simp
@[simp] theorem State.followup_rxq (k : Nat) (pl : List Byte) (e : PtEntry) : (s.followup k pl e).rxq = s.rxq := by
  unfold State.followup; dsimp only; split <;> simp
@[simp] theorem State.followup_rst (k : Nat) (pl : List Byte) (e : PtEntry) : (s.followup k pl e).rst = s.rst := by
  unfold State.followup; dsimp only; split <;> simp
@[simp] theorem State.followup_turns (k : Nat) (pl : List Byte) (e : PtEntry) : (s.followup k pl e).turns = s.turns := by
  unfold State.followup; dsimp only; split <;> simp
@[simp] theorem State.followup_responses (k : Nat) (pl : List Byte) (e : PtEntry) : (s.followup k pl e).responses = s.responses := by
  unfold State.followup; dsimp only; split <;> simp
@[simp] theorem State.followup_ctr (k : Nat) (pl : List Byte) (e : PtEntry) : (s.followup k pl e).ctr = s.ctr + 1 := by
  unfold State.followup; dsimp only; split <;> simp

/-- A follow-up writes no entry but the one of the counter it used up (R224). -/
theorem State.followup_ptAt_other (k : Nat) (pl : List Byte) (e : PtEntry) (c : Byte) (h : c ≠ s.ctr) :
    (s.followup k pl e).ptAt c = s.ptAt c := by
  unfold State.followup
  dsimp only
  split
  · rw [ptAt_setPt_other _ _ _ _ (by simpa using h)]; simp [ptAt_eq]
  all_goals simp [ptAt_eq]

/-- At the counter it uses up, a follow-up writes its entry or leaves the one there (R224). -/
theorem State.followup_ptAt_ctr (k : Nat) (pl : List Byte) (e : PtEntry) :
    (s.followup k pl e).ptAt s.ctr = { e with valid := true } ∨ (s.followup k pl e).ptAt s.ctr = s.ptAt s.ctr := by
  unfold State.followup
  dsimp only
  split
  · left; simp
  all_goals right; simp [ptAt_eq]

/-- A follow-up passes to Transmit what its SEND does. -/
theorem State.followup_txLog (k : Nat) (pl : List Byte) (e : PtEntry) :
    (s.followup k pl e).txLog = (s.send (catalogRow s.cfg k).opc (catalogRow s.cfg k).len pl).next.txLog := by
  unfold State.followup; dsimp only; split <;> simp

/-- TX_INIT does one of four things (R150). -/
theorem hostInit_cases :
    let psm := payloadMismatch s.cfg.initLen s.cfg.initPayload
    (s.initDone = true ∧ s.hostInit = s.respond .alreadyInit 0x00 []) ∨
    (s.initDone = false ∧ 28 ≤ s.cfg.initPayload.length ∧
      s.hostInit = ((s.setFlagIf psm .psm).setFlag .proto).respond .protocol (warnByte psm) []) ∨
    (s.initDone = false ∧ s.cfg.initPayload.length ≤ 27 ∧ s.nextTxAnswer = .err ∧ s.hostInit =
      (((s.setFlagIf psm .psm).transmit (initFrame s.cfg)).setFlag .txerr).respond .transport (warnByte psm) []) ∨
    (s.initDone = false ∧ s.cfg.initPayload.length ≤ 27 ∧ s.nextTxAnswer = .ok ∧ s.hostInit = State.respond
      { (s.setFlagIf psm .psm).transmit (initFrame s.cfg) with initDone := true } .ok (warnByte psm) []) := by
  intro psm
  have hs : s.hostInit = if s.initDone then s.respond .alreadyInit 0x00 [] else
      let r := s.transmitChecked (initFrame s.cfg) psm
      match r.1 with
      | .sent => State.respond { r.2 with initDone := true } .ok (warnByte psm) []
      | .lenErr => r.2.respond .protocol (warnByte psm) []
      | .txFail => r.2.respond .transport (warnByte psm) [] := rfl
  cases hi : s.initDone
  · rw [hs, hi]
    rcases transmitChecked_cases s (initFrame s.cfg) psm with ⟨hv, h⟩ | ⟨hv, ha, h⟩ | ⟨hv, ha, h⟩ <;>
      simp only [initFrame, commandFrame, validFrame_assemble, decide_eq_true_eq, decide_eq_false_iff_not, not_le] at hv
    · exact .inr (.inl ⟨rfl, hv, by rw [h]; rfl⟩)
    · exact .inr (.inr (.inl ⟨rfl, hv, ha, by rw [h]; rfl⟩))
    · exact .inr (.inr (.inr ⟨rfl, hv, ha, by rw [h]; rfl⟩))
  · exact .inl ⟨rfl, by rw [hs, hi]; rfl⟩

/-- TCInsert finds afterwards whatever was found before (R225). -/
theorem tcInsert_keeps (u v : Uid) (t x : Tag) (h : s.tcLookup v = some x) : (s.tcInsert u t).tcLookup v = some x := by
  rcases tcInsert_cases s u t with ⟨-, e⟩ | ⟨-, -, e⟩ | ⟨hn, -, e⟩ <;> rw [e]
  · exact h
  · exact h
  · have : v ≠ u := fun hv => by simp [hv, hn] at h
    simpa [State.tcLookup, cacheFind_cacheAdd_other _ _ _ _ this] using h

/-- Every instruction answers a next state: JTPC has no trap (R280). -/
theorem exec_next (i : Instr) : ∃ t, exec i s = .next t := by
  cases i <;> first | exact ⟨_, rfl⟩ | skip
  case evtPop => simp only [exec, execEvtPop]; split <;> exact ⟨_, rfl⟩

end Sys2Proof.Machine
end

