-- ==== Sys2Proof/Laws/Effect.lean ====
section
/-! SUPPORT. What one instruction can do, said once: the dozen shapes of the state it answers, each with the instructions that
have it. -/

namespace Sys2Proof.Machine

open Sys2Proof

/-- The shapes of what `exec i s` answers. The first six are a HostStep's, the others an RxStep's. -/
inductive Effect (i : Instr) (s : State) : State → Prop
  | answer (rc : Rc) (w : Byte) (d : List Byte) (hb : inbound i = false) : Effect i s (s.respond rc w d)
  | send (opc len : Byte) (pl : List Byte) (hb : inbound i = false) (hs : sends i = true) (h : s.initDone = true) :
      Effect i s (s.hostSend opc len pl)
  | init (hi : i = .txInit ∨ i = .wireInit) : Effect i s s.hostInit
  | pop (r : TagEvent) (rest : List TagEvent) (hi : i = .evtPop) (hq : s.evq = r :: rest) :
      Effect i s (State.respond { s with evq := rest } .ok 0x00 (recordBytes r))
  | clear (mask : BitVec 16) (hi : i = .statusClear mask) :
      Effect i s (State.respond { s with status := clearedStatus s.status mask } .ok 0x00 [])
  | ctrl (v : Byte) (hi : i = .ctrlWrite v) :
      Effect i s (State.respond { s with ctrl := ctrlBits v } .ok 0x00 [])
  | drop (r : DropReason) (hb : inbound i = true) : Effect i s (s.dropFrame r)
  | cksum (hb : inbound i = true) : Effect i s ((s.setFlag .rxcksum).dropFrame .cksum)
  | event (pad : Byte) (a : Action) (uid : Uid) (tag : Option Tag) (hb : inbound i = true) (h : s.initDone = true) :
      Effect i s (s.push pad a uid tag)
  | ask (f : Frame) (k : Nat) (pl : List Byte) (e : PtEntry) (hi : i = .rxEvent f) (hb : inbound i = true)
      (hs : sends i = true) (h : s.initDone = true) : Effect i s (s.followup k pl e)
  | askAgain (f : Frame) (k : Nat) (pl : List Byte) (e : PtEntry) (hi : i = .rxReadReply f) (hb : inbound i = true)
      (hs : sends i = true) (h : s.initDone = true) (hv : (s.ptAt (replyCtr f)).valid = true) :
      Effect i s ((s.clearPt (replyCtr f)).followup k pl e)
  | resolve (f : Frame) (tag : Tag) (hi : i = .rxReadReply f ∨ i = .rxModelReply f) (hb : inbound i = true)
      (h : s.initDone = true) (hv : (s.ptAt (replyCtr f)).valid = true) :
      Effect i s (s.resolve (replyCtr f) (s.ptAt (replyCtr f)) tag)

/-- A host command has the effect of a refusal or of a send. -/
theorem hostCommand_effect (i : Instr) (s : State) (k : Nat) (pl : List Byte) (hb : inbound i = false)
    (hs : sends i = true) : Effect i s (s.hostCommand k pl) := by
  unfold State.hostCommand
  split
  · exact .answer _ _ _ hb
  · split
    · exact .answer _ _ _ hb
    · rename_i h; exact .send _ _ _ hb hs (by simpa using h)

/-- The pre-checks drop, or leave the body's effect. -/
theorem afterPrecheck_effect (i : Instr) (s : State) (f : Frame) (body : State → State) (hb : inbound i = true)
    (h : s.initDone = true → Effect i s (body s)) : Effect i s (s.afterPrecheck f body) := by
  rcases afterPrecheck_cases s f body with ⟨-, e⟩ | ⟨-, -, -, e⟩ | ⟨hi, -, e⟩ <;> rw [e]
  · exact .drop _ hb
  · exact .cksum hb
  · exact h hi

/-- Matching drops, or leaves the body's effect on the matched entry. -/
theorem afterMatch_effect (i : Instr) (s : State) (c : Byte) (want : Stage) (body : PtEntry → State → State)
    (hb : inbound i = true) (h : (s.ptAt c).valid = true → Effect i s (body (s.ptAt c) s)) :
    Effect i s (s.afterMatch c want body) := by
  rcases afterMatch_cases s c want body with ⟨-, e⟩ | ⟨-, -, e⟩ | ⟨hv, -, e⟩ <;> rw [e]
  · exact .drop _ hb
  · exact .drop _ hb
  · exact h hv

/-- Every instruction has one of the effects. -/
theorem exec_effect (i : Instr) (s : State) : ∃ t, exec i s = .next t ∧ Effect i s t := by
  cases i
  case evtPop =>
    simp only [exec, execEvtPop]
    split
    · exact ⟨_, rfl, .answer _ _ _ rfl⟩
    · rename_i r rest hq; exact ⟨_, rfl, .pop r rest rfl hq⟩
  all_goals refine ⟨_, rfl, ?_⟩
  case nop | teaEncipher | teaDecipher | teaEncode | teaDecode | frmVerify | frmAssemble | cacheLookup | ptRead
      | statusRead => exact .answer _ _ _ rfl
  case frmChecksum => split <;> exact .answer _ _ _ rfl
  case txRaw =>
    split
    · exact .answer _ _ _ rfl
    · rename_i h; exact .send _ _ _ rfl rfl (by simpa using h)
  case txInit => exact .init (.inl rfl)
  case wireInit => exact .init (.inr rfl)
  case statusClear mask => exact .clear mask rfl
  case ctrlWrite v => exact .ctrl v rfl
  case rxEvent f =>
    refine afterPrecheck_effect _ s f _ rfl fun hi => ?_
    unfold State.rxEvent State.eventAdded State.eventRemoved
    split
    · exact .drop _ rfl
    split
    · split
      · exact .event _ _ _ _ rfl hi
      · exact .ask f _ _ _ rfl rfl rfl hi
    split
    · exact .event _ _ _ _ rfl hi
    · exact .drop _ rfl
  case rxReadReply f =>
    refine afterPrecheck_effect _ s f _ rfl fun hi => afterMatch_effect _ s _ _ _ rfl fun hv => ?_
    unfold State.readReply
    split
    · exact .resolve f _ (.inl rfl) rfl hi hv
    · exact .askAgain f _ _ _ rfl rfl rfl hi hv
    · exact .drop _ rfl
  case rxModelReply f =>
    exact afterPrecheck_effect _ s f _ rfl fun hi => afterMatch_effect _ s _ _ _ rfl fun hv => .resolve f _ (.inr rfl) rfl hi hv
  case rxBadMarker f => exact afterPrecheck_effect _ s f _ rfl fun _ => .drop _ rfl
  case rxBadPrefix f => exact afterPrecheck_effect _ s f _ rfl fun _ => .drop _ rfl
  all_goals exact hostCommand_effect _ _ _ _ rfl rfl

/-- The effect of an answered instruction. -/
theorem effect_of_exec {i : Instr} {s t : State} (h : exec i s = .next t) : Effect i s t := by
  obtain ⟨u, hu, he⟩ := exec_effect i s
  rw [h] at hu; cases hu; exact he

/-- A request or a command is never an inbound frame. -/
theorem decodeRequest_inbound {b : List Byte} {i : Instr} (h : decodeRequest b = .ok i) : inbound i = false := by
  unfold decodeRequest at h
  split at h <;> [cases h; split at h] <;> [cases h; split at h] <;> [skip; cases h]
  unfold reqInstr at h
  split at h <;> cases h <;> rfl

theorem decodeCommand_inbound {cfg : Cfg} {f : List Byte} {i : Instr} (h : decodeCommand cfg f = .ok i) :
    inbound i = false := by
  unfold decodeCommand at h
  split at h <;> [cases h; split at h] <;> [skip; cases h]
  unfold wireInstr at h
  split at h <;> cases h <;> rfl

/-- What a step that answers a next state did: a reset, nothing, the refusal of a request, or one instruction's effect on the
state with its words taken; an inbound frame's only while EVQ has room. -/
theorem step_effect {s t : State} (h : step s = .next t) :
    (s.rst = true ∧ t = s.resetCore) ∨
    (s.rst = false ∧ t = s) ∨
    (s.rst = false ∧ ∃ rc w d, t = s.nextEvent.2.respond rc w d) ∨
    (s.rst = false ∧ ∃ i, exec i s.nextEvent.2 = .next t ∧ Effect i s.nextEvent.2 t ∧
      (inbound i = true → s.evq.length < evqDepth s.cfg)) := by
  rcases step_cases s with ⟨hr, e⟩ | ⟨hr, e⟩ | ⟨hr, b, e, -, -, h1⟩ | ⟨hr, -, e⟩ | ⟨hr, i, h1, h2⟩
  · rw [e] at h; cases h; exact .inl ⟨hr, by simp [State.nextEvent, hr]⟩
  · rw [e] at h; cases h; exact .inr (.inl ⟨hr, rfl⟩)
  · rw [h1] at h; cases h
    exact .inr (.inr (.inl ⟨hr, by cases e <;> exact ⟨_, _, _, rfl⟩⟩))
  · rw [e] at h; cases h
  · rw [h1] at h
    refine .inr (.inr (.inr ⟨hr, i, h, effect_of_exec h, fun hb => ?_⟩))
    rcases h2 with ⟨f, hf, -⟩ | ⟨b, -, hd⟩ | ⟨f, -, hd⟩
    · exact (nextEvent_frame s f hf).1
    · rw [decodeRequest_inbound hd] at hb; cases hb
    · rw [decodeCommand_inbound hd] at hb; cases hb

end Sys2Proof.Machine
end

