-- ==== Sys2Proof/Laws/PerInstr.lean ====
section
/-! SUPPORT. One lemma per instruction about its words: a request has the length R128 gives its OP, a frame has the class of its
instruction, and a command frame opens with 0x55 and the length and opcode of a present row of CATALOG. -/

namespace Sys2Proof.Laws.Encoding

open Sys2Proof Sys2Proof.Machine

/-- What the words of `i` are at their port (30_encoding.md R91, R100, R126, R128). -/
def WordsOk (cfg : Cfg) (i : Instr) : Code → Prop
  | .host (.request b) => reqLen b = some b.length
  | .host (.command f) =>
    f[0] = 0x55 ∧ ∃ k, kindOfOpcode cfg f[2] = some k ∧ f[1] = (catalogRow cfg k).len ∧ f[2] = (catalogRow cfg k).opc
  | .rx f => decodeFrame f = i

/-- The words of a well-formed instruction are in order. -/
def Statement (i : Instr) : Prop := ∀ cfg, i.wf cfg = true → WordsOk cfg i (encode cfg i)

theorem requestOk (cfg : Cfg) {i : Instr} (b : List Byte) (h : reqLen b = some b.length) :
    WordsOk cfg i (requestCode b) := h

theorem wordsOk_command (cfg : Cfg) (k : Nat) (c : Byte) (pl : List Byte) (i : Instr)
    (h : kindOfOpcode cfg (catalogRow cfg k).opc = some k) :
    WordsOk cfg i (.host (.command (bytesAt 32 (commandFrame cfg k c pl) 0))) := by
  have e : (bytesAt 32 (commandFrame cfg k c pl) 0)[2] = (catalogRow cfg k).opc := by
    rw [bytesAt_getElem, commandFrame, assemble_eq]; rfl
  refine ⟨by rw [bytesAt_getElem, commandFrame, assemble_eq]; rfl, k, by rw [e, h], ?_, e⟩
  rw [bytesAt_getElem, commandFrame, assemble_eq]; rfl

theorem commandOk (cfg : Cfg) (k : Nat) (pl : List Byte) (i : Instr) (h : wireWf cfg k pl = true) :
    WordsOk cfg i (commandCode cfg k pl) := by
  simp only [wireWf, Bool.and_eq_true, decide_eq_true_eq, beq_iff_eq] at h
  exact wordsOk_command cfg k 0 pl i h.1.1

theorem nop : Statement .nop := fun _ _ => requestOk _ _ rfl

theorem teaEncipher (v0 v1 : Word) : Statement (.teaEncipher v0 v1) := fun _ _ => requestOk _ _ rfl

theorem teaDecipher (v0 v1 : Word) : Statement (.teaDecipher v0 v1) := fun _ _ => requestOk _ _ rfl

theorem teaEncode (b : Block) : Statement (.teaEncode b) := fun _ _ => requestOk _ _ (by simp [reqLen])

theorem teaDecode (b : Block) : Statement (.teaDecode b) := fun _ _ => requestOk _ _ (by simp [reqLen])

theorem frmChecksum (p : Byte) (f : Frame) : Statement (.frmChecksum p f) := fun _ _ => requestOk _ _ (by simp [reqLen])

theorem frmVerify (f : Frame) : Statement (.frmVerify f) := fun _ _ => requestOk _ _ (by simp [reqLen])

theorem frmAssemble (pfx opc len c : Byte) (pl : List Byte) : Statement (.frmAssemble pfx opc len c pl) := fun _ h => requestOk _ _ (by
  simp only [Instr.wf, countable, decide_eq_true_eq] at h
  simp [reqLen]; omega)

theorem txCommand (k : Byte) (pl : List Byte) : Statement (.txCommand k pl) := fun _ h => requestOk _ _ (by
  simp only [Instr.wf, countable, decide_eq_true_eq] at h
  simp [reqLen]; omega)

theorem txRaw (opc len : Byte) (pl : List Byte) : Statement (.txRaw opc len pl) := fun _ h => requestOk _ _ (by
  simp only [Instr.wf, countable, decide_eq_true_eq] at h
  simp [reqLen]; omega)

theorem txInit : Statement .txInit := fun _ _ => requestOk _ _ rfl

theorem evtPop : Statement .evtPop := fun _ _ => requestOk _ _ rfl

theorem cacheLookup (uid : Uid) : Statement (.cacheLookup uid) := fun _ _ => requestOk _ _ (by simp [reqLen])

theorem ptRead (c : Byte) : Statement (.ptRead c) := fun _ _ => requestOk _ _ rfl

theorem statusRead : Statement .statusRead := fun _ _ => requestOk _ _ rfl

theorem statusClear (mask : BitVec 16) : Statement (.statusClear mask) := fun _ _ => requestOk _ _ rfl

theorem ctrlWrite (v : Byte) : Statement (.ctrlWrite v) := fun _ _ => requestOk _ _ rfl

theorem rxEvent (f : Frame) : Statement (.rxEvent f) := fun _ h => by
  simp only [Instr.wf] at h
  simp_all [WordsOk, encode, decodeFrame]

theorem rxReadReply (f : Frame) : Statement (.rxReadReply f) := fun _ h => by
  simp only [Instr.wf] at h
  simp_all [WordsOk, encode, decodeFrame]

theorem rxModelReply (f : Frame) : Statement (.rxModelReply f) := fun _ h => by
  simp only [Instr.wf] at h
  simp_all [WordsOk, encode, decodeFrame]

theorem rxBadMarker (f : Frame) : Statement (.rxBadMarker f) := fun _ h => by
  simp only [Instr.wf] at h
  simp_all [WordsOk, encode, decodeFrame]

theorem rxBadPrefix (f : Frame) : Statement (.rxBadPrefix f) := fun _ h => by
  simp only [Instr.wf] at h
  simp_all [WordsOk, encode, decodeFrame]

theorem wireSwitchPad (pad r g b : Byte) : Statement (.wireSwitchPad pad r g b) := fun cfg h => commandOk cfg 0x00 [pad, r, g, b] _ h

theorem wireFadePad (pl : List Byte) : Statement (.wireFadePad pl) := fun cfg h => commandOk cfg 0x01 pl _ h

theorem wireFlashPad (pl : List Byte) : Statement (.wireFlashPad pl) := fun cfg h => commandOk cfg 0x02 pl _ h

theorem wireSwitchPads (pl : List Byte) : Statement (.wireSwitchPads pl) := fun cfg h => commandOk cfg 0x03 pl _ h

theorem wireFadePads (pl : List Byte) : Statement (.wireFadePads pl) := fun cfg h => commandOk cfg 0x04 pl _ h

theorem wireFlashPads (pl : List Byte) : Statement (.wireFlashPads pl) := fun cfg h => commandOk cfg 0x05 pl _ h

theorem wireFadeRandom (pl : List Byte) : Statement (.wireFadeRandom pl) := fun cfg h => commandOk cfg 0x06 pl _ h

theorem wireRead (pl : List Byte) : Statement (.wireRead pl) := fun cfg h => commandOk cfg 0x07 pl _ h

theorem wireListModel (pl : List Byte) : Statement (.wireListModel pl) := fun cfg h => commandOk cfg 0x08 pl _ h

theorem wireInit : Statement .wireInit := fun cfg h => wordsOk_command cfg 0x09 0x01 cfg.initPayload _ (by simp only [Instr.wf, beq_iff_eq] at h; exact h)

theorem wireSeed (pl : List Byte) : Statement (.wireSeed pl) := fun cfg h => commandOk cfg 0x0A pl _ h

theorem wireChallenge (pl : List Byte) : Statement (.wireChallenge pl) := fun cfg h => commandOk cfg 0x0B pl _ h

theorem wireUnnamed0C (pl : List Byte) : Statement (.wireUnnamed0C pl) := fun cfg h => commandOk cfg 0x0C pl _ h

theorem wireUnnamed0D (pl : List Byte) : Statement (.wireUnnamed0D pl) := fun cfg h => commandOk cfg 0x0D pl _ h

end Sys2Proof.Laws.Encoding
end

