-- ==== Sys2Proof/Tests/Slice0.lean ====
section
/-! SUPPORT. Tests: ill-formed terms, words written out from spec/30_encoding.md, single steps with the results of
spec/95_test_vectors.md, and a witness for the hypotheses of every obligation. -/

set_option maxRecDepth 20000

namespace Sys2Proof.Tests

open Sys2Proof Sys2Proof.Machine

/-- A frame from its first bytes. -/
def frame (l : List Byte) : Frame := bytesAt 32 l 0

def uidU : Uid := #v[0x0A, 0x0B, 0x0C, 0x0D, 0x0E, 0x0F, 0x10]
def uidP2 : Uid := #v[0x04, 0xA1, 0xB2, 0xC3, 0xD4, 0xE5, 0x80]
def uidP3 : Uid := #v[0x11, 0x22, 0x33, 0x44, 0x55, 0x66, 0x77]

/-- E1: SW. -/
def frameSW : Frame := frame [0x55, 0x06, 0xC0, 0x02, 0x01, 0xFF, 0x00, 0x00, 0x1D]
/-- P2 step 3. -/
def frameChar : Frame := frame ([0x55, 0x12, 0x12, 0x02] ++ zeros 16 ++ [0x7B])
/-- P3 step 4. -/
def frameVehicle : Frame := frame ([0x55, 0x12, 0x12, 0x02, 0x34, 0x12] ++ zeros 7 ++ [0x01] ++ zeros 6 ++ [0xC2])
/-- V4.8. -/
def frameUnknown : Frame := frame ([0x55, 0x12, 0x12, 0x02] ++ zeros 9 ++ [0x02] ++ zeros 6 ++ [0x7D])
/-- P2 step 6. -/
def frameModel : Frame := frame [0x55, 0x0A, 0x0A, 0x03, 0x0A, 0x32, 0x6F, 0xA1, 0xB7, 0xC5, 0xD1, 0xF1, 0xF6]
/-- V4.6, V4.18: ADDED of uid U at pad CENTER with index 3, no checksum. -/
def frameAdded : Frame := frame ([0x56, 0x00, 0x01, 0x00, 0x03, 0x01] ++ uidU.toList)
/-- P2 step 8: REMOVED. -/
def frameRemoved : Frame := frame ([0x56, 0x00, 0x01, 0x00, 0x00, 0x00] ++ uidP2.toList)
/-- V4.1 and V4.2. -/
def frameBadPad : Frame := frame ([0x56, 0x00, 0x07, 0x00, 0x00, 0x01] ++ uidU.toList)
def frameBadAction : Frame := frame ([0x56, 0x00, 0x01, 0x00, 0x00, 0x05] ++ uidU.toList)
/-- V4.3 and V4.4. -/
def frameMarker : Frame := frame [0x55, 0x33, 0x33, 0x02]
def frameFirst : Frame := frame [0xAA]

def absent : CatRow := { present := false, opc := 0, len := 0 }

/-- TCFG, the test configuration of 95_test_vectors.md section 0; the functions are listed for the arguments used here. -/
def cfgT : Cfg :=
  { fadePad := absent, flashPad := absent, switchPadsPresent := false, switchPadsOpc := 0
    fadePads := absent, flashPads := absent, fadeRandom := absent
    readOpc := 0xD2, readLen := 0x04, listModelOpc := 0xD4, initOpc := 0xB0, initLen := 0x0F
    seed := absent, challenge := absent, unnamed0C := absent, unnamed0D := absent
    initPayload := [0x28, 0x63, 0x29, 0x20, 0x4C, 0x45, 0x47, 0x4F, 0x20, 0x32, 0x30, 0x31, 0x34]
    padLeft := 0x02, padRight := 0x03, padAll := 0x00, actRemoved := 0x00, evtPadOff := 2
    tcCapacity := some 4, evqDepthPred := 1, deviceIndex := 0x00
    readPayloadTab := [(0x00, [0x00, 0x24]), (0x03, [0x03, 0x24])]
    classifyTab := [(frameChar, .character), (frameVehicle, .vehicle), (frameUnknown, .unknown)]
    vehicleIdTab := [(frameVehicle, 0x1234)]
    lmPlainTab := [(0x00, Vector.replicate 8 0)]
    charIdTab := [(#v[0x2A, 0, 0, 0, 0, 0, 0, 0], 0x2A)] }

/-- A configuration of our own with every row present, for the wire commands. -/
def cfgW : Cfg :=
  { cfgT with
    fadePad := ⟨true, 0xE1, 0x04⟩, flashPad := ⟨true, 0xE2, 0x04⟩, switchPadsPresent := true, switchPadsOpc := 0xE3
    fadePads := ⟨true, 0xE4, 0x04⟩, flashPads := ⟨true, 0xE5, 0x04⟩, fadeRandom := ⟨true, 0xE6, 0x04⟩
    seed := ⟨true, 0xE7, 0x04⟩, challenge := ⟨true, 0xE8, 0x04⟩, unnamed0C := ⟨true, 0xE9, 0x04⟩
    unnamed0D := ⟨true, 0xEA, 0x1D⟩ }

/-- Right after reset, under `cfgT`, TX answering Ok once. -/
def sR : State := { State.reset with cfg := cfgT, txAnswers := [.ok] }

/-- S0 of 95_test_vectors.md section 4. -/
def s0 : State := { sR with initDone := true }

/-- S0 with TX answering Err. -/
def s0Err : State := { s0 with txAnswers := [.err] }

/-- S0 with the entry `e` at PT[c]. -/
def sPt (c : Byte) (e : PtEntry) : State := s0.setPt c e

def awaitRead : PtEntry := { valid := true, stage := .awaitRead, pad := 0x01, idx := 0x00, uid := uidP2 }
def awaitModel : PtEntry := { awaitRead with stage := .awaitModel }
def tag2A : Tag := { kind := .character, id := 0x2A }
def record2A : TagEvent := { pad := 0x01, action := .added, tag := some tag2A, device := 0x00, uid := uidP2 }
def recordV : TagEvent :=
  { pad := 0x03, action := .added, tag := some { kind := .vehicle, id := 0x1234 }, device := 0x00, uid := uidP3 }

/-- S0 with EVQ full. -/
def sFull : State := { s0 with evq := [recordV, recordV] }

/-- A value of the next state; `d` where there is none. -/
def got {α : Type} (d : α) (o : Host.Outcome State Fault Refusal) (f : State → α) : α :=
  match o with
  | .next t => f t
  | .fault _ => d
  | .refused _ => d

/-- The responses after a step. -/
def answers (o : Host.Outcome State Fault Refusal) : List (List Byte) := got [] o (·.responses)

/-- The frames passed to Transmit, without their trailing zeros. -/
def sent (o : Host.Outcome State Fault Refusal) : List (List Byte) :=
  got [] o (·.txLog.map fun x => (x.1.reverse.dropWhile (· == 0)).reverse)

/-- STATUS as read, CTR, INIT_DONE after a step. -/
def regs (o : Host.Outcome State Fault Refusal) : BitVec 16 × Byte × Bool :=
  got (0, 0, false) o fun t => (t.statusWord, t.ctr, t.initDone)

-- Well-formedness: an ill-formed term for each check

theorem test_wf_cfg : cfgT.wf = true ∧ cfgW.wf = true ∧ Cfg.wf { cfgT with evtPadOff := 13 } = true := by decide
theorem test_wf_cfg_initPayload : Cfg.wf { cfgT with initPayload := zeros 28 } = false := by decide
theorem test_wf_cfg_center : Cfg.wf { cfgT with padLeft := 0x01 } = false := by decide
theorem test_wf_cfg_distinct : Cfg.wf { cfgT with padRight := 0x00 } = false := by decide
theorem test_wf_cfg_removed : Cfg.wf { cfgT with actRemoved := 0x01 } = false := by decide
theorem test_wf_cfg_padOff : Cfg.wf { cfgT with evtPadOff := 0 } = false ∧ Cfg.wf { cfgT with evtPadOff := 4 } = false ∧
    Cfg.wf { cfgT with evtPadOff := 12 } = false := by decide
theorem test_wf_cfg_capacity : Cfg.wf { cfgT with tcCapacity := some 0 } = false := by decide
theorem test_wf_payload_count : (Instr.frmAssemble 0 0 0 0 (zeros 256)).wf cfgT = false ∧
    (Instr.txCommand 0 (zeros 256)).wf cfgT = false ∧ (Instr.txRaw 0 0 (zeros 256)).wf cfgT = false ∧
    (Instr.txRaw 0 0 (zeros 255)).wf cfgT = true := by decide
theorem test_wf_frame_class : (Instr.rxEvent frameChar).wf cfgT = false ∧ (Instr.rxReadReply frameModel).wf cfgT = false ∧
    (Instr.rxModelReply frameChar).wf cfgT = false ∧ (Instr.rxBadMarker frameChar).wf cfgT = false ∧
    (Instr.rxBadPrefix frameAdded).wf cfgT = false := by decide
theorem test_wf_wire_absent : (Instr.wireFadePad [0, 0]).wf cfgT = false := by decide
theorem test_wf_wire_length : (Instr.wireRead [0]).wf cfgT = false ∧ (Instr.wireUnnamed0D (zeros 28)).wf cfgW = false ∧
    (Instr.wireUnnamed0D (zeros 27)).wf cfgW = true := by decide
theorem test_wf_wire_shadowed : (Instr.wireInit).wf { cfgT with initOpc := 0xC0 } = false := by decide

-- Decoding: words from the encodings of 30_encoding.md

/-- R108 to R112. -/
theorem test_decode_cipher :
    decodeRequest [0x00] = .ok .nop ∧
    decodeRequest [0x01, 0x01, 0x02, 0x03, 0x04, 0x05, 0x06, 0x07, 0x08] = .ok (.teaEncipher 0x04030201 0x08070605) ∧
    decodeRequest [0x02, 0x01, 0x02, 0x03, 0x04, 0x05, 0x06, 0x07, 0x08] = .ok (.teaDecipher 0x04030201 0x08070605) ∧
    decodeRequest [0x03, 1, 2, 3, 4, 5, 6, 7, 8] = .ok (.teaEncode #v[1, 2, 3, 4, 5, 6, 7, 8]) ∧
    decodeRequest [0x04, 1, 2, 3, 4, 5, 6, 7, 8] = .ok (.teaDecode #v[1, 2, 3, 4, 5, 6, 7, 8]) := by
  refine ⟨?_, ?_, ?_, ?_, ?_⟩ <;> decide

/-- R113 to R115. -/
theorem test_decode_codec :
    decodeRequest ([0x10, 0x08] ++ frameSW.toList) = .ok (.frmChecksum 0x08 frameSW) ∧
    decodeRequest ([0x11] ++ frameSW.toList) = .ok (.frmVerify frameSW) ∧
    decodeRequest [0x12, 0x55, 0xC0, 0x06, 0x02, 0x03, 0x01, 0xFF, 0x00] =
      .ok (.frmAssemble 0x55 0xC0 0x06 0x02 [0x01, 0xFF, 0x00]) := by
  refine ⟨?_, ?_, ?_⟩ <;> decide

/-- R116 to R118. -/
theorem test_decode_send :
    decodeRequest [0x13, 0x00, 0x04, 0x01, 0xFF, 0x00, 0x00] = .ok (.txCommand 0x00 [0x01, 0xFF, 0x00, 0x00]) ∧
    decodeRequest [0x14, 0xC0, 0x06, 0x01, 0xAB] = .ok (.txRaw 0xC0 0x06 [0xAB]) ∧
    decodeRequest [0x15] = .ok .txInit := by
  refine ⟨?_, ?_, ?_⟩ <;> decide

/-- R119 to R124. -/
theorem test_decode_tables :
    decodeRequest [0x20] = .ok .evtPop ∧
    decodeRequest [0x21, 0x04, 0xA1, 0xB2, 0xC3, 0xD4, 0xE5, 0x80] = .ok (.cacheLookup uidP2) ∧
    decodeRequest [0x22, 0x02] = .ok (.ptRead 0x02) ∧ decodeRequest [0x30] = .ok .statusRead ∧
    decodeRequest [0x31, 0xFE, 0x01] = .ok (.statusClear 0x01FE) ∧
    decodeRequest [0x32, 0x03] = .ok (.ctrlWrite 0x03) := by
  refine ⟨?_, ?_, ?_, ?_, ?_, ?_⟩ <;> decide

/-- R259, R264, R265: V5.4 to V5.9. -/
theorem test_decode_refused :
    decodeRequest [0x05] = .rejected .illegalOp ∧ decodeRequest [0xFF, 0x00, 0x00] = .rejected .illegalOp ∧
    decodeRequest [] = .rejected .empty ∧ decodeRequest [0x30, 0x00] = .rejected .badLength ∧
    decodeRequest [0x13, 0x00, 0x04, 0x01, 0xFF, 0x00] = .rejected .badLength ∧
    decodeRequest [0x13, 0x00] = .rejected .badLength := by
  refine ⟨?_, ?_, ?_, ?_, ?_, ?_⟩ <;> decide

/-- R126. -/
theorem test_decode_frames :
    decodeFrame frameAdded = .rxEvent frameAdded ∧ decodeFrame frameChar = .rxReadReply frameChar ∧
    decodeFrame frameModel = .rxModelReply frameModel ∧ decodeFrame frameMarker = .rxBadMarker frameMarker ∧
    decodeFrame frameFirst = .rxBadPrefix frameFirst := by
  refine ⟨?_, ?_, ?_, ?_, ?_⟩ <;> decide

/-- R91, R100, R101: command frames by kind, the open opcodes those of `cfgW`. -/
theorem test_decode_wire_pads :
    decodeCommand cfgW [0x55, 0x06, 0xC0, 0x00, 0x01, 0xFF, 0x02, 0x03] = .ok (.wireSwitchPad 0x01 0xFF 0x02 0x03) ∧
    decodeCommand cfgW [0x55, 0x04, 0xE1, 0x00, 0x07, 0x08] = .ok (.wireFadePad [0x07, 0x08]) ∧
    decodeCommand cfgW [0x55, 0x04, 0xE2, 0x00, 0x07, 0x08] = .ok (.wireFlashPad [0x07, 0x08]) ∧
    decodeCommand cfgW ([0x55, 0x0E, 0xE3, 0x00, 0x07] ++ zeros 11) = .ok (.wireSwitchPads ([0x07] ++ zeros 11)) ∧
    decodeCommand cfgW [0x55, 0x04, 0xE4, 0x00, 0x07, 0x08] = .ok (.wireFadePads [0x07, 0x08]) ∧
    decodeCommand cfgW [0x55, 0x04, 0xE5, 0x00, 0x07, 0x08] = .ok (.wireFlashPads [0x07, 0x08]) ∧
    decodeCommand cfgW [0x55, 0x04, 0xE6, 0x00, 0x07, 0x08] = .ok (.wireFadeRandom [0x07, 0x08]) := by
  refine ⟨?_, ?_, ?_, ?_, ?_, ?_, ?_⟩ <;> decide

theorem test_decode_wire_others :
    decodeCommand cfgW [0x55, 0x04, 0xD2, 0x00, 0x07, 0x24] = .ok (.wireRead [0x07, 0x24]) ∧
    decodeCommand cfgW [0x55, 0x0A, 0xD4, 0x00, 1, 2, 3, 4, 5, 6, 7, 8] = .ok (.wireListModel [1, 2, 3, 4, 5, 6, 7, 8]) ∧
    decodeCommand cfgW [0x55, 0x0F, 0xB0, 0x01] = .ok .wireInit ∧
    decodeCommand cfgW [0x55, 0x04, 0xE7, 0x00, 0x07, 0x08] = .ok (.wireSeed [0x07, 0x08]) ∧
    decodeCommand cfgW [0x55, 0x04, 0xE8, 0x00, 0x07, 0x08] = .ok (.wireChallenge [0x07, 0x08]) ∧
    decodeCommand cfgW [0x55, 0x04, 0xE9, 0x00, 0x07, 0x08] = .ok (.wireUnnamed0C [0x07, 0x08]) ∧
    decodeCommand cfgW ([0x55, 0x1D, 0xEA, 0x00, 0x07] ++ zeros 26) = .ok (.wireUnnamed0D ([0x07] ++ zeros 26)) := by
  refine ⟨?_, ?_, ?_, ?_, ?_, ?_, ?_⟩ <;> decide

/-- The numbering of the opcode table (assumption log 12): OP low, f[0] high, and the one fixed opcode. -/
theorem test_decode_table_words :
    decodeTableWord 8 0x30 = some .statusRead ∧ decodeTableWord 8 0xC0 = some (.wireSwitchPad 0 0 0 0) ∧
    decodeTableWord 24 0x550012 = some (.rxReadReply (frame [0x55, 0x00, 0x12])) := by
  refine ⟨?_, ?_, ?_⟩ <;> decide

-- One step each: the vectors of 95_test_vectors.md

/-- V5.2. -/
theorem test_nop : answers (exec .nop s0) = [[0x00, 0x00]] := by decide
/-- V2.1, the last row; V2.3. -/
theorem test_teaEncipher : answers (exec (.teaEncipher 0x80000000 0x00000001) s0) =
    [[0x00, 0x00, 0x38, 0xAB, 0x83, 0x5D, 0x3C, 0xB6, 0x73, 0x8F]] := by decide
theorem test_teaDecipher : answers (exec (.teaDecipher 0xC811CA72 0xE962E87E) s0) = [zeros 10] := by decide
theorem test_teaEncode : answers (exec (.teaEncode #v[0, 1, 2, 3, 4, 5, 6, 7]) s0) =
    [[0x00, 0x00, 0xC8, 0x24, 0x62, 0x60, 0xA3, 0xE6, 0x37, 0x3E]] := by decide
theorem test_teaDecode : answers (exec (.teaDecode #v[0xFF, 0xFF, 0xFF, 0xFF, 0xFF, 0xFF, 0xFF, 0xFF]) s0) =
    [[0x00, 0x00, 0xA5, 0xD0, 0xC3, 0x31, 0x0A, 0xC6, 0xA0, 0x66]] := by decide
/-- V3.3, V3.4. -/
theorem test_frmChecksum : answers (exec (.frmChecksum 0x20 frameSW) s0) = [[0x00, 0x00, 0x3A]] := by decide
theorem test_frmChecksum_range : answers (exec (.frmChecksum 0x21 frameSW) s0) = [[0x81, 0x00]] := by decide
/-- V3.6, V3.8. -/
theorem test_frmVerify : answers (exec (.frmVerify frameSW) s0) = [[0x00, 0x00, 0x01, 0x1D]] := by decide
theorem test_frmVerify_range : answers (exec (.frmVerify (frame [0x55, 0x1E])) s0) = [zeros 4] := by decide
/-- V3.14, V3.15. -/
theorem test_frmAssemble_long : answers (exec (.frmAssemble 0x55 0xAA 0x1E 0x0A (List.replicate 28 0x01)) s0) =
    [[0x82, 0x00, 0x21, 0x00, 0x55, 0x1E, 0xAA, 0x0A] ++ List.replicate 28 0x01 ++ [0x43]] := by decide
theorem test_frmAssemble_psm : answers (exec (.frmAssemble 0x55 0xC0 0x06 0x02 [0x01, 0xFF, 0x00]) s0) =
    [[0x00, 0x01, 0x20, 0x00, 0x55, 0x06, 0xC0, 0x02, 0x01, 0xFF, 0x00, 0x1D] ++ zeros 24] := by decide
/-- V3.21, V3.16. -/
theorem test_txCommand_wrap :
    let o := exec (.txCommand 0x00 [0x01, 0xFF, 0x00, 0x00]) { s0 with ctr := 0xFF }
    answers o = [[0x00, 0x00, 0xFF]] ∧ sent o = [[0x55, 0x06, 0xC0, 0xFF, 0x01, 0xFF, 0x00, 0x00, 0x1A]] ∧
    regs o = (0x0001, 0x00, true) := by decide
theorem test_txCommand_init : answers (exec (.txCommand 0x09 []) sR) = [[0x87, 0x00, 0x00]] := by decide
/-- V3.24 from S0, V3.25. -/
theorem test_txRaw_err :
    let o := exec (.txRaw 0xC0 0x01 []) s0Err
    answers o = [[0x83, 0x01, 0x02]] ∧ sent o = [[0x55, 0x01, 0xC0, 0x02, 0x18]] ∧
    regs o = (0x000B, 0x03, true) := by decide
theorem test_txRaw_long :
    let o := exec (.txRaw 0xC0 0x06 (zeros 28)) { s0 with ctr := 0x03 }
    answers o = [[0x82, 0x01, 0x03]] ∧ sent o = [] ∧ regs o = (0x0007, 0x04, true) := by decide
/-- V3.26, V3.28. -/
theorem test_txInit :
    let o := exec .txInit sR
    answers o = [[0x00, 0x00]] ∧ sent o = [[0x55, 0x0F, 0xB0, 0x01] ++ cfgT.initPayload ++ [0xF7]] ∧
    regs o = (0x0001, 0x02, true) := by decide
theorem test_txInit_err :
    let o := exec .txInit { sR with txAnswers := [.err] }
    answers o = [[0x83, 0x00]] ∧ regs o = (0x0008, 0x02, false) := by decide
/-- V4.12, P2 step 7. -/
theorem test_evtPop_empty : answers (exec .evtPop s0) = [[0x86, 0x00] ++ zeros 16] := by decide
theorem test_evtPop : answers (exec .evtPop { s0 with evq := [record2A, recordV] }) =
    [[0x00, 0x00, 0x01, 0x01, 0x03, 0x00, 0x04, 0xA1, 0xB2, 0xC3, 0xD4, 0xE5, 0x80, 0x2A, 0x00, 0x00, 0x00, 0x00]] := by
  decide
/-- P2 step 13. -/
theorem test_cacheLookup : answers (exec (.cacheLookup uidP2) { s0 with tc := [(uidP2, tag2A)] }) =
    [[0x00, 0x00, 0x01, 0x01, 0x2A, 0x00, 0x00, 0x00]] := by decide
/-- V4.9, V4.14. -/
theorem test_ptRead : answers (exec (.ptRead 0x02) (sPt 0x02 { awaitRead with idx := 0x03, uid := uidU })) =
    [[0x00, 0x00, 0x01, 0x00, 0x01, 0x03, 0x0A, 0x0B, 0x0C, 0x0D, 0x0E, 0x0F, 0x10]] := by decide
theorem test_ptRead_invalid : answers (exec (.ptRead 0x02) s0) = [zeros 13] := by decide
/-- P3 step 9. -/
theorem test_statusRead : answers (exec .statusRead
    { sFull with status := 0x7186, ctrl := 0x03, ctr := 0x05, tc := [(uidP3, tag2A)] }) =
    [[0x00, 0x00, 0x87, 0x77, 0x03, 0x05, 0x02, 0x01, 0x00]] := by decide
/-- V5.10, V5.12. -/
theorem test_statusClear : regs (exec (.statusClear 0x01FE) { s0 with status := 0x7186 }) = (0x0001, 0x02, true) := by
  decide
theorem test_statusClear_none : regs (exec (.statusClear 0xFE01) { s0 with status := 0x7186 }) = (0x7187, 0x02, true) := by
  decide
/-- V5.3. -/
theorem test_ctrlWrite : got 0 (exec (.ctrlWrite 0xFF) s0) (·.ctrl) = 0x03 := by decide
/-- V4.6, V4.10. -/
theorem test_rxEvent_read :
    let o := exec (.rxEvent frameAdded) s0
    sent o = [[0x55, 0x04, 0xD2, 0x02, 0x03, 0x24, 0x54]] ∧ regs o = (0x0001, 0x03, true) ∧
    got PtEntry.blank o (·.ptAt 0x02) = { awaitRead with idx := 0x03, uid := uidU } := by decide
theorem test_rxEvent_removed :
    got [] (exec (.rxEvent frameRemoved) s0) (·.evq) = [{ record2A with action := .removed, tag := none }] := by decide
/-- P2 step 3, P3 step 4 on the entry of step 2. -/
theorem test_rxReadReply_character :
    let o := exec (.rxReadReply frameChar) { sPt 0x02 awaitRead with ctr := 0x03 }
    sent o = [[0x55, 0x0A, 0xD4, 0x03, 0x72, 0xCA, 0x11, 0xC8, 0x7E, 0xE8, 0x62, 0xE9, 0xFC]] ∧
    got awaitRead o (·.ptAt 0x02) = { awaitRead with valid := false } ∧
    got awaitRead o (·.ptAt 0x03) = awaitModel := by decide
theorem test_rxReadReply_vehicle :
    let o := exec (.rxReadReply frameVehicle) (sPt 0x02 { awaitRead with pad := 0x03, idx := 0x01, uid := uidP3 })
    got [] o (·.evq) = [recordV] ∧ got [] o (·.tc) = [(uidP3, { kind := .vehicle, id := 0x1234 })] := by decide
/-- P2 step 6, V4.7. -/
theorem test_rxModelReply :
    let o := exec (.rxModelReply frameModel) (sPt 0x03 awaitModel)
    got [] o (·.evq) = [record2A] ∧ got [] o (·.tc) = [(uidP2, tag2A)] := by decide
theorem test_rxModelReply_stage :
    regs (exec (.rxModelReply frameModel) (sPt 0x03 awaitRead)) = (0x8081, 0x02, true) := by decide
/-- V4.3, V4.4; the drops before INIT and by the checksum (V4.18). -/
theorem test_rxBadMarker : regs (exec (.rxBadMarker frameMarker) s0) = (0x6081, 0x02, true) := by decide
theorem test_rxBadMarker_cksum :
    regs (exec (.rxBadMarker frameMarker) { s0 with ctrl := 0x01 }) = (0x2181, 0x02, true) := by decide
theorem test_rxBadPrefix : regs (exec (.rxBadPrefix frameFirst) s0) = (0x3081, 0x02, true) := by decide
theorem test_rxBadPrefix_notInit : regs (exec (.rxBadPrefix frameFirst) sR) = (0x1080, 0x02, false) := by decide

/-- E1, V3.26, the READ of V4.13 and the LIST_MODEL of V4.16, sent by the wire commands of the rows. -/
theorem test_wireSwitchPad : sent (exec (.wireSwitchPad 0x01 0xFF 0x00 0x00) s0) =
    [[0x55, 0x06, 0xC0, 0x02, 0x01, 0xFF, 0x00, 0x00, 0x1D]] := by decide
theorem test_wireInit : sent (exec .wireInit sR) = [[0x55, 0x0F, 0xB0, 0x01] ++ cfgT.initPayload ++ [0xF7]] := by decide
theorem test_wireRead : sent (exec (.wireRead [0x00, 0x24]) s0) = [[0x55, 0x04, 0xD2, 0x02, 0x00, 0x24, 0x51]] := by decide
theorem test_wireListModel :
    sent (exec (.wireListModel [0x72, 0xCA, 0x11, 0xC8, 0x7E, 0xE8, 0x62, 0xE9]) { s0 with ctr := 0x04 }) =
    [[0x55, 0x0A, 0xD4, 0x04, 0x72, 0xCA, 0x11, 0xC8, 0x7E, 0xE8, 0x62, 0xE9, 0xFD]] := by decide
/-- V3.18: rows absent in TCFG. -/
theorem test_wire_absent : ∀ i ∈ [Instr.wireFadePad [], .wireFlashPad [], .wireSwitchPads [], .wireFadePads [],
    .wireFlashPads [], .wireFadeRandom [], .wireSeed [], .wireChallenge [], .wireUnnamed0C [], .wireUnnamed0D []],
    answers (exec i sR) = [[0x87, 0x00, 0x00]] := by decide
/-- Each row's own opcode, where it is present: byte 2 of the frame. -/
theorem test_wire_present : ([Instr.wireFadePad [], .wireFlashPad [], .wireSwitchPads [], .wireFadePads [],
    .wireFlashPads [], .wireFadeRandom [], .wireSeed [], .wireChallenge [], .wireUnnamed0C [], .wireUnnamed0D []].map
    fun i => (sent (exec i { s0 with cfg := cfgW })).map fun f => f.getD 2 0) =
    [[0xE1], [0xE2], [0xE3], [0xE4], [0xE5], [0xE6], [0xE7], [0xE8], [0xE9], [0xEA]] := by decide

/-- A step from reset with a word placed runs it: STATUS_READ (V5.1), TX_COMMAND before INIT. -/
theorem test_step_placed : answers (step (sR.withFetchWord 8 0x30)) = [[0, 0, 0, 0, 0, 2, 0, 0, 0]] ∧
    answers (step (sR.withFetchWord 8 0x13)) = [[0x84, 0x00, 0x00]] := by decide
/-- V5.5: an unassigned OP. -/
theorem test_step_illegal : answers (step { sR with hostq := [.request [0xFF, 0x00, 0x00]] }) = [[0x80, 0x00]] := by decide
/-- P3 step 9: the frame is held while EVQ is full, the host's request runs. -/
theorem test_step_hold : answers (step { sFull with rxq := [frameFirst], hostq := [.request [0x00]] }) = [[0x00, 0x00]] := by
  decide

-- Witnesses: states and operands that meet the hypotheses of each obligation that has any, at the bounds of each clause

theorem test_witness_ResetSetsEveryPieceOfState : ({ sFull with rst := true } : State).rst = true := rfl

theorem test_witness_ResetLeavesTheOutside :
    ({ sFull with rst := true, hostq := [.request [0x00]], rxq := [frameFirst] } : State).rst = true := rfl

/-- S0 with one record in EVQ, a frame offered, and the next turn `t`. -/
def sBoth (t : Turn) (h : HostItem) : State :=
  { s0 with evq := [recordV], rxq := [frameFirst], hostq := [h], turns := [t] }

theorem test_witness_StepRunsTheDecodedRequest :
    decodeRequest [0x30] = .ok .statusRead ∧
    decodeCommand cfgT frameSW.toList = .ok (.wireSwitchPad 0x01 0xFF 0x00 0x00) ∧
    (∀ h ∈ [HostItem.request [0x30], .command frameSW],
      let a : State := { s0 with hostq := [h] }
      let b : State := { sFull with hostq := [h], rxq := [frameFirst] }
      let c := sBoth .host h
      (a.rst = false ∧ a.hostq = [h] ∧ a.rxq = []) ∧
      (b.rst = false ∧ b.hostq = [h] ∧ evqDepth b.cfg ≤ b.evq.length) ∧
      (c.rst = false ∧ c.hostq = [h] ∧ c.rxq ≠ [] ∧ c.evq.length < evqDepth c.cfg ∧ c.nextTurn = .host)) := by
  refine ⟨?_, ?_, ?_⟩ <;> decide

theorem test_witness_StepRunsTheClassifiedFrame :
    let a : State := { s0 with evq := [recordV], rxq := [frameFirst] }
    let b := sBoth .rx (.request [0x30])
    (a.rst = false ∧ a.rxq = [frameFirst] ∧ a.evq.length < evqDepth a.cfg ∧ a.hostq = []) ∧
    (b.rst = false ∧ b.rxq = [frameFirst] ∧ b.evq.length < evqDepth b.cfg ∧ b.hostq ≠ [] ∧ b.nextTurn = .rx) := by decide

theorem test_witness_FullQueueHoldsFrames :
    let a : State := { sFull with rxq := [frameFirst] }
    let b : State := { sFull with rxq := [frameFirst], hostq := [.request [0x20]] }
    (∀ s ∈ [a, b], s.rst = false ∧ evqDepth s.cfg ≤ s.evq.length) ∧ (∃ t, step b = .next t) ∧
    (∀ s ∈ [a, s0, sFull], s.rst = false ∧ s.hostq = [] ∧ (s.rxq = [] ∨ evqDepth s.cfg ≤ s.evq.length)) :=
  ⟨by decide, ⟨_, rfl⟩, by decide⟩

/-- A request that stands at HOST's port is the next event. -/
theorem test_witness_nextEvent (b : List Byte) :
    State.nextEvent { s0 with hostq := [.request b] } = (.host (.request b), s0) := rfl

/-- Lengths one below and one above what R128 gives, for every OP, and an OP not assigned on each side of a gap. -/
theorem test_witness_RefusesLength :
    (∀ op ∈ [0x00, 0x15, 0x20, (0x30 : Byte)], ([op, 0x00] : List Byte).length ≠ 1) ∧
    (∀ op ∈ [0x22, (0x32 : Byte)], ([op] : List Byte).length ≠ 2 ∧ ([op, 0x00, 0x00] : List Byte).length ≠ 2) ∧
    (∀ n ∈ [1, 3], ((0x31 : Byte) :: zeros n).length ≠ 3) ∧ (∀ n ∈ [6, 8], ((0x21 : Byte) :: zeros n).length ≠ 8) ∧
    (∀ op ∈ [0x01, 0x02, 0x03, (0x04 : Byte)], ∀ n ∈ [7, 9], (op :: zeros n).length ≠ 9) ∧
    (∀ n ∈ [31, 33], ((0x11 : Byte) :: zeros n).length ≠ 33) ∧ (∀ n ∈ [32, 34], ((0x10 : Byte) :: zeros n).length ≠ 34) ∧
    (∀ b ∈ [[0x13, 0x00], [0x13, 0x00, 0x04, 1, 2, 3], [0x13, 0x00, 0x04, 1, 2, 3, 4, (5 : Byte)]],
      b.length ≠ 3 + (b.getD 2 0).toNat) ∧
    (∀ b ∈ [[0x14, 0xC0, 0x06], [0x14, 0xC0, 0x06, 0x01], [0x14, 0xC0, 0x06, 0x01, 1, (2 : Byte)]],
      b.length ≠ 4 + (b.getD 3 0).toNat) ∧
    (∀ b ∈ [[0x12, 0x55, 0xC0, 0x06, 0x02], [0x12, 0x55, 0xC0, 0x06, 0x02, 0x01, 1, (2 : Byte)]],
      b.length ≠ 6 + (b.getD 5 0).toNat) := by decide

theorem test_witness_RefusedRequestsOnlyAnswer :
    (∀ op ∈ [0x05, 0x0F, 0x16, 0x1F, 0x23, 0x2F, 0x33, (0xFF : Byte)], op ∉ [0x00, 0x01, 0x02, 0x03, 0x04, 0x10, 0x11, 0x12,
      0x13, 0x14, 0x15, 0x20, 0x21, 0x22, 0x30, 0x31, (0x32 : Byte)]) ∧ 32 < (0x21 : Byte).toNat := by decide

theorem test_witness_FramesAreClassifiedInOrder :
    frameAdded[0] = 0x56 ∧ (frameChar[0] = 0x55 ∧ frameChar[2] = 0x12) ∧ (frameModel[0] = 0x55 ∧ frameModel[2] = 0x0A) ∧
    (frameMarker[0] = 0x55 ∧ frameMarker[2] ≠ 0x12 ∧ frameMarker[2] ≠ 0x0A) ∧
    (frameFirst[0] ≠ 0x55 ∧ frameFirst[0] ≠ 0x56) := by decide

theorem test_witness_DecodeUndoesEncode :
    (∀ i ∈ [Instr.nop, .teaEncipher 1 2, .teaDecipher 1 2, .teaEncode (Vector.replicate 8 1),
        .teaDecode (Vector.replicate 8 1), .frmChecksum 0xFF frameSW, .frmVerify frameSW, .frmAssemble 1 2 3 4 (zeros 255),
        .txCommand 0xFF (zeros 255), .txRaw 1 2 (zeros 255), .txInit, .evtPop, .cacheLookup uidU, .ptRead 0xFF,
        .statusRead, .statusClear 0xFFFF, .ctrlWrite 0xFF], i.wf cfgW = true) ∧
    (∀ i ∈ [Instr.rxEvent frameAdded, .rxReadReply frameChar, .rxModelReply frameModel, .rxBadMarker frameMarker,
        .rxBadPrefix frameFirst], i.wf cfgW = true) ∧
    (∀ i ∈ [Instr.wireSwitchPad 1 2 3 4, .wireFadePad [1, 2], .wireFlashPad [1, 2], .wireSwitchPads (zeros 12),
        .wireFadePads [1, 2], .wireFlashPads [1, 2], .wireFadeRandom [1, 2], .wireRead [1, 2], .wireListModel (zeros 8),
        .wireInit, .wireSeed [1, 2], .wireChallenge [1, 2], .wireUnnamed0C [1, 2], .wireUnnamed0D (zeros 27)],
      i.wf cfgW = true) := by
  refine ⟨?_, ?_, ?_⟩ <;> decide

theorem test_witness_AcceptedRequestsAreEncodings :
    decodeRequest ([0x13, 0x00, 0xFF] ++ zeros 255) = .ok (.txCommand 0x00 (zeros 255)) := by decide

theorem test_witness_BuiltFramesHaveTheLayout : (zeros 27).length ≤ 27 ∧ 28 ≤ (zeros 28).length := by decide

theorem test_witness_MatchingFramesVerify :
    (frameSW.toList = assemble 0x55 0xC0 0x06 0x02 [0x01, 0xFF, 0x00, 0x00] ∧ 4 + 2 = (0x06 : Byte).toNat) ∧
    ((frame (assemble 0x55 0xAA 0x1D 0x0A (List.replicate 27 0x01))).toList =
      assemble 0x55 0xAA 0x1D 0x0A (List.replicate 27 0x01) ∧ 27 + 2 = (0x1D : Byte).toNat) := by decide

theorem test_witness_OneChangedByteFailsVerify :
    (verify frameSW).1 = true ∧ (∀ i ∈ [(0 : Fin 32), 2, 7], i.val ≠ 1 ∧ i.val < frameSW[1].toNat + 2 ∧ 0xEE ≠ frameSW[i]) := by
  decide

theorem test_witness_sends :
    28 ≤ (zeros 28).length ∧ (zeros 27).length ≤ 27 ∧ s0Err.nextTxAnswer = .err ∧ s0.nextTxAnswer = .ok ∧
    s0.initDone = true ∧ s0Err.initDone = true ∧ sR.initDone = false := by decide

theorem test_witness_TxCommandByCases :
    let bad := fun (s : State) (k : Byte) => 0x0D < k.toNat ∨ k = 0x09 ∨ (catalogRow s.cfg k.toNat).present = false
    bad s0 0x0E ∧ bad s0 0xFF ∧ bad s0 0x09 ∧ bad s0 0x01 ∧ ¬ bad s0 0x00 ∧ ¬ bad sR 0x00 ∧ ¬ bad s0 0x08 ∧
    ¬ bad { s0 with cfg := cfgW } 0x0D ∧ ¬ bad { s0Err with cfg := cfgW } 0x0A := by decide

theorem test_witness_TxInitByCases :
    let a : State := { sR with cfg := { cfgT with initPayload := zeros 28 } }
    let b : State := { sR with cfg := { cfgT with initPayload := zeros 27 }, txAnswers := [.err] }
    (s0.initDone = true) ∧ (a.initDone = false ∧ 28 ≤ a.cfg.initPayload.length) ∧
    (b.initDone = false ∧ b.cfg.initPayload.length ≤ 27 ∧ b.nextTxAnswer = .err) ∧
    (sR.initDone = false ∧ sR.cfg.initPayload.length ≤ 27 ∧ sR.nextTxAnswer = .ok) := by decide

/-- The kinds of the wire commands but INIT. -/
def kinds : List Nat := [0, 1, 2, 3, 4, 5, 6, 7, 8, 10, 11, 12, 13]

theorem test_witness_WireCommandsSendTheirRow :
    let s : State := { s0 with cfg := cfgW }
    s.initDone = true ∧ s.nextTxAnswer = .ok ∧ (∀ k ∈ kinds, (catalogRow s.cfg k).present = true) ∧
    (zeros 27).length ≤ 27 := by decide

theorem test_witness_WireSwitchPadAndInitFrames :
    (s0.initDone = true ∧ s0.nextTxAnswer = .ok) ∧
    (sR.initDone = false ∧ sR.nextTxAnswer = .ok ∧ sR.cfg.initPayload.length ≤ 27 ∧
      sR.cfg.initPayload.length + 2 = sR.cfg.initLen.toNat) := by decide

theorem test_witness_WireCommandsRefusedSendNothing :
    (∀ k ∈ [1, 2, 3, 4, 5, 6, 10, 11, 12, 13], (catalogRow s0.cfg k).present = false) ∧
    (∀ k ∈ kinds, (catalogRow cfgW k).present = true) ∧ ({ sR with cfg := cfgW } : State).initDone = false ∧
    s0.initDone = true := by decide

/-- The premises that most correlator statements share: past INIT, and RXCK_EN 0 or a checksum that verifies. -/
abbrev Passes (f : Frame) (s : State) : Prop :=
  s.initDone = true ∧ (s.ctrl.getLsbD 0 = true → (verify f).1 = true)

theorem test_witness_PrecheckDrops :
    sR.initDone = false ∧ (let s : State := { s0 with ctrl := 0x01 };
      s.initDone = true ∧ s.ctrl.getLsbD 0 = true ∧ (verify frameMarker).1 = false) := by decide

theorem test_witness_BadPrefixAndMarkerDropped :
    Passes frameFirst s0 ∧ Passes frameMarker s0 ∧ Passes frameSW { s0 with ctrl := 0x01 } := by decide

theorem test_witness_UnknownPadOrActionDropped :
    let pads := [cfgT.padLeft, 0x01, cfgT.padRight, cfgT.padAll]
    (Passes frameBadPad s0 ∧ frameBadPad[s0.cfg.evtPadOff] ∉ pads) ∧
    (Passes frameBadAction s0 ∧ frameBadAction[s0.cfg.evtPadOff] ∈ pads ∧ frameBadAction[5] ≠ 0x01 ∧
      frameBadAction[5] ≠ s0.cfg.actRemoved) := by decide

theorem test_witness_CachedTagReportedAtOnce :
    let s : State := { s0 with tc := [(uidU, tag2A)] }
    let f := frameAdded
    Passes f s ∧ f[s.cfg.evtPadOff] ∈ [s.cfg.padLeft, 0x01, s.cfg.padRight, s.cfg.padAll] ∧ f[5] = 0x01 ∧
    s.tcLookup #v[f[6], f[7], f[8], f[9], f[10], f[11], f[12]] = some tag2A := by decide

theorem test_witness_UncachedTagStartsIdentification :
    let f := frameAdded
    ∀ s ∈ [s0, s0Err, { sPt 0x02 awaitRead with tc := [(uidP2, tag2A)] }],
      Passes f s ∧ f[s.cfg.evtPadOff] ∈ [s.cfg.padLeft, 0x01, s.cfg.padRight, s.cfg.padAll] ∧ f[5] = 0x01 ∧
      s.tcLookup #v[f[6], f[7], f[8], f[9], f[10], f[11], f[12]] = none ∧
      (s.nextTxAnswer = .ok ∨ s.nextTxAnswer = .err) := by decide

theorem test_witness_RemovedReportedFromCache :
    let f := frameRemoved
    Passes f s0 ∧ f[s0.cfg.evtPadOff] ∈ [s0.cfg.padLeft, 0x01, s0.cfg.padRight, s0.cfg.padAll] ∧ f[5] ≠ 0x01 ∧
    f[5] = s0.cfg.actRemoved := by decide

theorem test_witness_UnmatchedReplyDropped :
    (Passes frameChar s0 ∧ (s0.ptAt frameChar[3]).valid = false) ∧
    (let s := sPt 0x02 awaitModel;
      Passes frameChar s ∧ (s.ptAt frameChar[3]).valid = true ∧ (s.ptAt frameChar[3]).stage = .awaitModel) ∧
    (let s := sPt 0x03 awaitRead;
      Passes frameModel s ∧ (s.ptAt frameModel[3]).valid = true ∧ (s.ptAt frameModel[3]).stage = .awaitRead) := by decide

theorem test_witness_FirstCacheInsertionWins :
    let one : State := { s0 with tc := [(uidP2, tag2A)] }
    let full : State := { one with cfg := { cfgT with tcCapacity := some 1 } }
    let unbounded : State := { one with cfg := { cfgT with tcCapacity := none } }
    one.tcLookup uidP2 ≠ none ∧ (full.tcLookup uidU = none ∧ full.cfg.tcCapacity = some full.tc.length) ∧
    (one.tcLookup uidU = none ∧ one.cfg.tcCapacity ≠ some one.tc.length) ∧
    (unbounded.tcLookup uidU = none ∧ unbounded.cfg.tcCapacity ≠ some unbounded.tc.length) := by decide

theorem test_witness_IdentificationResolves :
    (let s := sPt 0x02 awaitRead;
      Passes frameVehicle s ∧ (s.ptAt frameVehicle[3]).valid = true ∧ (s.ptAt frameVehicle[3]).stage = .awaitRead ∧
      classify s.cfg frameVehicle = .vehicle) ∧
    (let s := sPt 0x03 awaitModel;
      Passes frameModel s ∧ (s.ptAt frameModel[3]).valid = true ∧ (s.ptAt frameModel[3]).stage = .awaitModel) := by decide

/-- With CTR the very entry the reply clears, and with another. -/
theorem test_witness_CharacterAsksForItsModel :
    ∀ s ∈ [sPt 0x02 awaitRead, { sPt 0x02 awaitRead with ctr := 0x03 }, { sPt 0x02 awaitRead with txAnswers := [.err] }],
      Passes frameChar s ∧ (s.ptAt frameChar[3]).valid = true ∧ (s.ptAt frameChar[3]).stage = .awaitRead ∧
      classify s.cfg frameChar = .character ∧ (s.nextTxAnswer = .ok ∨ s.nextTxAnswer = .err) := by decide

theorem test_witness_UnknownDiscriminatorDropped :
    let s := sPt 0x02 awaitRead
    Passes frameUnknown s ∧ (s.ptAt frameUnknown[3]).valid = true ∧ (s.ptAt frameUnknown[3]).stage = .awaitRead ∧
    classify s.cfg frameUnknown = .unknown := by decide

/-- Each way an RxStep can change PT: an entry written, one cleared with the next written, and one cleared. -/
theorem test_witness_RxStepBounds :
    (∃ t, exec (.rxEvent frameAdded) s0 = .next t) ∧
    (∃ t, exec (.rxReadReply frameChar) (sPt 0x02 awaitRead) = .next t) ∧
    (∃ t, exec (.rxModelReply frameModel) (sPt 0x03 awaitModel) = .next t) := ⟨⟨_, rfl⟩, ⟨_, rfl⟩, _, rfl⟩

theorem test_witness_EvtPopTakesTheOldest : s0.evq = [] ∧ sFull.evq = recordV :: [recordV] := ⟨rfl, rfl⟩

theorem test_witness_CtrlWriteKeepsTwoBits : ∃ t, exec (.ctrlWrite 0xFE) sFull = .next t := ⟨_, rfl⟩

theorem test_witness_IrqFollowsTheQueue :
    let one : State := { s0 with evq := [recordV], ctrl := 0x02 }
    (∀ s ∈ [s0, one], s.evq.length ≤ 1) ∧
    (∀ s ∈ [{ one with hostq := [.request [0x20]] }, { one with hostq := [.request [0x32, 0x01]] }, { one with rst := true }],
      s.irq = true ∧ got true (step s) State.irq = false) := by decide

/-- Both cases of NoStepTraps: a request, and a frame on the command port that is no command. -/
theorem test_witness_NoStepTraps :
    (∃ t, step { s0 with hostq := [.request [0xFF]] } = .next t) ∧
    decodeCommand s0.cfg frameFirst.toList = .rejected .notACommand ∧
    step { s0 with hostq := [.command frameFirst] } = .refused .notACommandFrame := ⟨⟨_, rfl⟩, by decide, rfl⟩

theorem test_witness_EachStepAnswersAndSendsAtMostOnce :
    (∃ t, exec (.txRaw 0xC0 0x06 []) s0 = .next t) ∧ (∃ t, exec (.rxEvent frameAdded) s0 = .next t) ∧
    s0.txAnswers = [.ok] := ⟨⟨_, rfl⟩, ⟨_, rfl⟩, rfl⟩

/-- A state with something in every part of the invariant. -/
def sInv : State :=
  { s0 with
    status := 0x7186, ctrl := 0x03, tc := [(uidP2, tag2A), (uidU, tag2A)], evq := [recordV]
    txLog := [(frameSW.toList, .ok)], hostq := [.request [0x20]] }

theorem test_witness_frameOk : FrameOk frameSW.toList :=
  ⟨by decide, by decide, 4, by decide, by decide, fun i hi => by
    by_cases h : i < 32
    · have : ∀ i < 32, 5 + 4 ≤ i → frameSW.toList.getD i 0 = 0 := by decide
      exact this i h hi
    · simp [h]⟩

theorem test_witness_StepKeepsTheInvariant : sInv.Inv ∧ ∃ t, step sInv = .next t :=
  ⟨⟨by decide, by decide, by decide, by decide, fun n h => by cases h; decide, by decide, by decide, by decide, by decide,
    fun x hx => by rw [List.mem_singleton.1 hx]; exact test_witness_frameOk, fun h => by cases h⟩, _, rfl⟩

/-- The premises of the statements about any step: a step that answers, with a host request, with a frame, and at a reset. -/
theorem test_witness_steps :
    (∃ t, step sInv = .next t) ∧ (∃ t, step { s0 with rxq := [frameAdded] } = .next t) ∧
    (∃ t, step { sInv with rst := true } = .next t) := ⟨⟨_, rfl⟩, ⟨_, rfl⟩, _, rfl⟩

theorem test_witness_CacheNeverForgets :
    sInv.rst = false ∧ (∃ t, step sInv = .next t) ∧ sInv.tcLookup uidP2 = some tag2A := ⟨rfl, ⟨_, rfl⟩, by decide⟩

theorem test_witness_InitDoneStaysUntilReset :
    (sInv.rst = false ∧ sInv.initDone = true ∧ ∃ t, step sInv = .next t) ∧
    (∀ i ∈ [Instr.txInit, .wireInit], ∃ t, exec i sR = .next t ∧ t.initDone ≠ sR.initDone) := by
  refine ⟨⟨rfl, rfl, _, rfl⟩, fun i hi => ?_⟩
  simp only [List.mem_cons, List.not_mem_nil, or_false] at hi
  rcases hi with rfl | rfl <;> exact ⟨_, rfl, by decide⟩

theorem test_witness_StickyFlagsStay :
    let s : State := { s0 with status := 0x7080 }
    flagOf s.status .rxdrop = true ∧ (∃ t, exec (.statusClear 0x0080) s = .next t) ∧ (∃ t, exec .nop s = .next t) :=
  ⟨by decide, ⟨_, rfl⟩, _, rfl⟩

theorem test_witness_CounterOnlyCountsSends :
    (∃ t, exec (.txRaw 0xC0 0x06 []) s0 = .next t) ∧ (∃ t, exec (.rxEvent frameAdded) s0 = .next t) := ⟨⟨_, rfl⟩, _, rfl⟩

theorem test_witness_HostOperationsKeepTheTables :
    inbound .evtPop = false ∧ (∃ t, exec .evtPop sFull = .next t) ∧ inbound (.ctrlWrite 0x03) = false ∧
    (∃ t, exec (.ctrlWrite 0x03) sFull = .next t) := ⟨rfl, ⟨_, rfl⟩, rfl, _, rfl⟩

theorem test_witness_RefusedRequestLeavesTheState :
    (∃ t, exec (.frmChecksum 0x21 frameSW) s0 = .next t ∧ t.responses = s0.responses ++ [0x81 :: 0x00 :: []]) ∧
    (∃ t, exec (.txRaw 0 0 []) sR = .next t ∧ t.responses = sR.responses ++ [0x84 :: 0x00 :: [0x00]]) ∧
    (∃ t, exec .txInit s0 = .next t ∧ t.responses = s0.responses ++ [0x85 :: 0x00 :: []]) ∧
    (∃ t, exec .evtPop s0 = .next t ∧ t.responses = s0.responses ++ [0x86 :: 0x00 :: zeros 16]) ∧
    (∃ t, exec (.txCommand 0x09 []) s0 = .next t ∧ t.responses = s0.responses ++ [0x87 :: 0x00 :: [0x00]]) :=
  ⟨⟨_, rfl, by decide⟩, ⟨_, rfl, by decide⟩, ⟨_, rfl, by decide⟩, ⟨_, rfl, by decide⟩, _, rfl, by decide⟩

end Sys2Proof.Tests
end

section
/-! The invariant of the machine (`State.Inv`): its STATUS part and its frames as facts of their own, one lemma for each
operation over the state that keeps it, one for each compound operation, and then every effect of an instruction and every step. -/

namespace Sys2Proof.Machine

open Sys2Proof

-- STATUS

/-- The part of the invariant that speaks of STATUS alone (10_state.md R34, R35; 42_correlator.md R211). -/
structure StatusOk (st : BitVec 16) : Prop where
  /-- The computed and reserved bits are not stored. -/
  reserved : st &&& 0x0E01#16 = 0
  /-- LAST_DROP holds no reserved code. -/
  code : (lastDropOf st).toNat ≤ 9
  /-- LAST_DROP is NONE exactly while RXDROP is 0. -/
  inStep : flagOf st .rxdrop = true ↔ lastDropOf st ≠ 0

/-- The bits of STATUS that are not stored, one by one (R33, R34). -/
theorem statusReserved_iff (st : BitVec 16) :
    st &&& 0x0E01#16 = 0 ↔ ∀ i ∈ [0, 9, 10, 11], st.getLsbD i = false := by
  have mask : ∀ i < 16, (0x0E01#16).getLsbD i = decide (i ∈ [0, 9, 10, 11]) := by decide
  constructor
  · intro h i hi
    have hlt : i < 16 := by simp at hi; omega
    have := congrArg (BitVec.getLsbD · i) h
    simpa [-List.mem_cons, mask i hlt, hi] using this
  · intro h
    apply BitVec.eq_of_getLsbD_eq
    intro i hi
    by_cases hm : i ∈ [0, 9, 10, 11] <;> simp [-List.mem_cons, mask i hi, hm, h]

theorem flagOf_clearedStatus (st mask : BitVec 16) (f : Flag) :
    flagOf (clearedStatus st mask) f = (flagOf st f && !mask.getLsbD f.bit) := by
  have hf := f.bit_lt
  rw [flagOf, clearedStatus_getLsbD _ _ _ (by omega), if_pos hf]; rfl

/-- STATUS_CLEAR makes LAST_DROP NONE exactly when it clears RXDROP (R262). -/
theorem lastDropOf_clearedStatus (st mask : BitVec 16) :
    lastDropOf (clearedStatus st mask) = if mask.getLsbD 7 then 0 else lastDropOf st := by
  ext i hi
  have bit : (lastDropOf (clearedStatus st mask)).getLsbD i = (st.getLsbD (12 + i) && !mask.getLsbD 7) := by
    rw [lastDropOf, BitVec.getLsbD_extractLsb', clearedStatus_getLsbD _ _ _ (by omega), if_neg (by omega),
      if_pos (by omega)]
    simp [hi]
  rw [← BitVec.getLsbD_eq_getElem, ← BitVec.getLsbD_eq_getElem, bit]
  cases mask.getLsbD 7 <;> simp [lastDropOf, hi]

/-- Every drop reason has an assigned code that is not NONE (R35). -/
theorem DropReason.code_assigned (r : DropReason) : r.code.toNat ≤ 9 ∧ r.code ≠ 0 := by cases r <;> decide

theorem statusOk_zero : StatusOk 0 := ⟨by decide, by decide, by decide⟩

/-- Setting any flag but RXDROP keeps STATUS in order. -/
theorem StatusOk.setFlag {st : BitVec 16} (h : StatusOk st) {f : Flag} (hf : f ≠ .rxdrop) : StatusOk (withFlag st f) where
  reserved := by
    have hb := f.bit_lt
    rw [statusReserved_iff]
    intro i hi
    have hne : i ≠ f.bit := by simp at hi; omega
    simp [withFlag_getLsbD, (statusReserved_iff st).1 h.reserved i hi, hne]
  code := by rw [lastDropOf_withFlag]; exact h.code
  inStep := by rw [lastDropOf_withFlag, flagOf_withFlag]; simpa [hf.symm] using h.inStep

/-- Dropping a frame sets RXDROP and LAST_DROP together (R211). -/
theorem StatusOk.dropped {st : BitVec 16} (h : StatusOk st) (r : DropReason) :
    StatusOk (withLastDrop (withFlag st .rxdrop) r.code) where
  reserved := by
    rw [statusReserved_iff]
    intro i hi
    have hlt : i < 12 ∧ i ≠ Flag.rxdrop.bit := by simp [Flag.bit] at hi ⊢; omega
    simp [withLastDrop_getLsbD, withFlag_getLsbD, (statusReserved_iff st).1 h.reserved i hi, hlt]
  code := by rw [lastDropOf_withLastDrop]; exact r.code_assigned.1
  inStep := by rw [lastDropOf_withLastDrop, flagOf_withLastDrop, flagOf_withFlag]; simpa using r.code_assigned.2

/-- STATUS_CLEAR clears RXDROP and LAST_DROP together (R262). -/
theorem StatusOk.cleared {st : BitVec 16} (h : StatusOk st) (mask : BitVec 16) : StatusOk (clearedStatus st mask) where
  reserved := by
    rw [statusReserved_iff]
    intro i hi
    have hr := (statusReserved_iff st).1 h.reserved i hi
    rw [clearedStatus_getLsbD _ _ _ (by simp at hi; omega), hr]
    simp
  code := by rw [lastDropOf_clearedStatus]; split <;> [decide; exact h.code]
  inStep := by
    rw [lastDropOf_clearedStatus, flagOf_clearedStatus, show Flag.rxdrop.bit = 7 from rfl]
    cases mask.getLsbD 7 <;> simp [h.inStep]

-- Frames

/-- ASSEMBLE's bytes as its checksummed head and what follows it (40_codec.md R141). -/
theorem assemble_eq_head_append (pfx opc len c : Byte) (pl : List Byte) :
    assemble pfx opc len c pl = frameHead pfx opc len c pl ++
      (checksum (frameHead pfx opc len c pl) (4 + pl.length) :: zeros (27 - pl.length)) := by
  simp [assemble_eq, frameHead]

/-- What ASSEMBLE builds with first byte 0x55 from at most 27 bytes has the frame property (R151). -/
theorem frameOk_assemble (opc len c : Byte) (pl : List Byte) (hl : pl.length ≤ 27) : FrameOk (assemble 0x55 opc len c pl) := by
  have hlen : (frameHead 0x55 opc len c pl).length = 4 + pl.length := frameHead_length ..
  refine ⟨by rw [assemble_length, if_pos hl], by rw [assemble_eq]; rfl, pl.length, hl, ?_, fun i hi => ?_⟩
  · rw [assemble_eq_head_append, List.getD_append_right _ _ _ _ hlen.le, checksum_append _ _ _ hlen.ge, hlen, Nat.sub_self]
    rfl
  · obtain ⟨j, rfl⟩ := Nat.exists_eq_add_of_le hi
    rw [assemble_eq_head_append, List.getD_append_right _ _ _ _ (by omega), hlen,
      show 5 + pl.length + j - (4 + pl.length) = j + 1 by omega]
    exact zeros_getD ..

-- The operations over the state

variable {s : State}

theorem State.Inv.statusOk (h : s.Inv) : StatusOk s.status := ⟨h.statusReserved, h.lastDropCode, h.lastDropFlag⟩

/-- STATUS may become any word that is in order. -/
theorem State.Inv.withStatus (h : s.Inv) {st : BitVec 16} (hst : StatusOk st) : State.Inv { s with status := st } :=
  { h with statusReserved := hst.reserved, lastDropCode := hst.code, lastDropFlag := hst.inStep }

theorem State.Inv.respond (h : s.Inv) (rc : Rc) (w : Byte) (d : List Byte) : (s.respond rc w d).Inv := { h with }

theorem State.Inv.setFlag (h : s.Inv) {f : Flag} (hf : f ≠ .rxdrop) : (s.setFlag f).Inv :=
  h.withStatus (h.statusOk.setFlag hf)

theorem State.Inv.setFlagIf (h : s.Inv) (b : Bool) {f : Flag} (hf : f ≠ .rxdrop) : (s.setFlagIf b f).Inv := by
  cases b
  · exact h
  · exact h.setFlag hf

theorem State.Inv.dropFrame (h : s.Inv) (r : DropReason) : (s.dropFrame r).Inv := h.withStatus (h.statusOk.dropped r)

theorem State.Inv.transmit (h : s.Inv) {f : List Byte} (hf : FrameOk f) : (s.transmit f).Inv :=
  { h with
    frames := fun x hx => by
      rcases List.mem_append.1 hx with hx | hx
      · exact h.frames x hx
      · rw [List.mem_singleton.1 hx]; exact hf }

/-- After INIT the clause about the time before it is void. -/
theorem beforeInit_of_initDone (hi : s.initDone = true) {p : Prop} : s.initDone = false → p := by simp [hi]

theorem State.Inv.withCtr (h : s.Inv) (hi : s.initDone = true) (c : Byte) : State.Inv { s with ctr := c } :=
  { h with beforeInit := beforeInit_of_initDone hi }

theorem State.Inv.setPt (h : s.Inv) (hi : s.initDone = true) (c : Byte) (e : PtEntry) : (s.setPt c e).Inv :=
  { h with beforeInit := beforeInit_of_initDone hi }

theorem State.Inv.push (h : s.Inv) (hi : s.initDone = true) (room : s.evq.length < evqDepth s.cfg) (pad : Byte) (a : Action)
    (uid : Uid) (t : Option Tag) : (s.push pad a uid t).Inv :=
  { h with
    queue := by simpa using room
    device := fun r hr => by
      rcases List.mem_append.1 hr with hr | hr
      · exact h.device r hr
      · rw [List.mem_singleton.1 hr]; rfl
    beforeInit := beforeInit_of_initDone hi }

/-- EVT_POP's change of EVQ (42_correlator.md R229). -/
theorem State.Inv.withoutOldest (h : s.Inv) {r : TagEvent} {rest : List TagEvent} (hq : s.evq = r :: rest) :
    State.Inv { s with evq := rest } :=
  have hle : rest.length ≤ s.evq.length := by simp [hq]
  { h with
    queue := hle.trans h.queue
    device := fun x hx => h.device x (by simp [hq, hx])
    beforeInit := fun hi => by
      obtain ⟨-, -, hempty, -⟩ := h.beforeInit hi
      simp [hq] at hempty }

/-- TCInsert keeps TC's order and its capacity (R225). -/
theorem State.Inv.tcInsert (h : s.Inv) (hi : s.initDone = true) (uid : Uid) (t : Tag) : (s.tcInsert uid t).Inv := by
  rcases tcInsert_cases s uid t with ⟨-, e⟩ | ⟨-, -, e⟩ | ⟨hnew, hroom, e⟩ <;> rw [e]
  · exact h
  · exact h.setFlag (by decide)
  · exact { h with
      cacheOrder := cacheAdd_sorted s.tc uid t hnew h.cacheOrder
      cacheSize := fun n hn => by
        have hle := h.cacheSize n hn
        have hne : n ≠ s.tc.length := fun he => hroom (by rw [← he]; exact hn)
        simp; omega
      beforeInit := beforeInit_of_initDone hi }

theorem State.Inv.withCtrl (h : s.Inv) (v : Byte) : State.Inv { s with ctrl := ctrlBits v } :=
  { h with ctrlReserved := by simp [ctrlBits, BitVec.and_assoc] }

theorem State.Inv.initialized (h : s.Inv) : State.Inv { s with initDone := true } :=
  { h with beforeInit := nofun }

/-- Taking the next event keeps the invariant: it touches only what the agents offer. -/
theorem State.Inv.nextEvent (h : s.Inv) : s.nextEvent.2.Inv := by
  rw [nextEvent_tuple]; exact { h with }

/-- A reset leaves a state in order whenever the configuration and the frames already sent are (R310, R311). -/
theorem inv_resetCore (hc : s.cfg.wf = true) (hf : ∀ x ∈ s.txLog, FrameOk x.1) : s.resetCore.Inv where
  config := hc
  queue := Nat.zero_le _
  device := by simp
  cacheOrder := .nil
  cacheSize := fun _ _ => Nat.zero_le _
  statusReserved := statusOk_zero.reserved
  lastDropCode := statusOk_zero.code
  lastDropFlag := statusOk_zero.inStep
  ctrlReserved := by simp
  frames := hf
  beforeInit := fun _ => ⟨rfl, rfl, rfl, fun c => by simp [ptAt_eq, PtEntry.blank]⟩

-- The compound operations

theorem State.Inv.send (h : s.Inv) (hi : s.initDone = true) (opc len : Byte) (pl : List Byte) : (s.send opc len pl).next.Inv := by
  have hpsm := (h.withCtr hi (s.ctr + 1)).setFlagIf (payloadMismatch len pl) (f := .psm) (by decide)
  rcases send_cases s opc len pl with ⟨-, e⟩ | ⟨hl, -, e⟩ | ⟨hl, -, e⟩ <;> rw [e]
  · exact hpsm.setFlag (by decide)
  · exact (hpsm.transmit (frameOk_assemble _ _ _ _ hl)).setFlag (by decide)
  · exact hpsm.transmit (frameOk_assemble _ _ _ _ hl)

theorem State.Inv.hostSend (h : s.Inv) (hi : s.initDone = true) (opc len : Byte) (pl : List Byte) : (s.hostSend opc len pl).Inv :=
  (h.send hi opc len pl).respond _ _ _

theorem State.Inv.hostInit (h : s.Inv) : s.hostInit.Inv := by
  have hpsm := h.setFlagIf (payloadMismatch s.cfg.initLen s.cfg.initPayload) (f := .psm) (by decide)
  rcases hostInit_cases s with ⟨-, e⟩ | ⟨-, -, e⟩ | ⟨-, hl, -, e⟩ | ⟨-, hl, -, e⟩ <;> rw [e]
  · exact h.respond _ _ _
  · exact (hpsm.setFlag (by decide)).respond _ _ _
  · exact ((hpsm.transmit (frameOk_assemble _ _ _ _ hl)).setFlag (by decide)).respond _ _ _
  · exact (hpsm.transmit (frameOk_assemble _ _ _ _ hl)).initialized.respond _ _ _

theorem State.Inv.followup (h : s.Inv) (hi : s.initDone = true) (k : Nat) (pl : List Byte) (e : PtEntry) :
    (s.followup k pl e).Inv := by
  have hs := h.send hi (catalogRow s.cfg k).opc (catalogRow s.cfg k).len pl
  unfold State.followup
  dsimp only
  split
  · exact (hs.setFlagIf _ (by decide)).setPt (by simpa using hi) _ _
  all_goals exact hs.setFlag (by decide)

theorem State.Inv.resolve (h : s.Inv) (hi : s.initDone = true) (room : s.evq.length < evqDepth s.cfg) (c : Byte) (e : PtEntry)
    (t : Tag) : (s.resolve c e t).Inv :=
  ((h.setPt hi c _).tcInsert hi e.uid t).push (by simpa using hi) (by simpa using room) _ _ _ _

-- Instructions and steps

/-- Every instruction keeps the invariant, an inbound frame where EVQ has room for what it may append. -/
theorem Effect.keeps_inv {i : Instr} {t : State} (e : Effect i s t) (h : s.Inv)
    (room : inbound i = true → s.evq.length < evqDepth s.cfg) : t.Inv := by
  cases e with
  | answer rc w d hb => exact h.respond rc w d
  | send opc len pl hb hs hi => exact h.hostSend hi opc len pl
  | init hi => exact h.hostInit
  | pop r rest _ hq => exact (h.withoutOldest hq).respond _ _ _
  | clear mask _ => exact (h.withStatus (h.statusOk.cleared mask)).respond _ _ _
  | ctrl v _ => exact (h.withCtrl v).respond _ _ _
  | drop r hb => exact h.dropFrame r
  | cksum hb => exact (h.setFlag (by decide)).dropFrame .cksum
  | event pad a uid tag hb hi => exact h.push hi (room hb) pad a uid tag
  | ask f k pl e _ _ _ hi => exact h.followup hi k pl e
  | askAgain f k pl e _ _ _ hi _ => exact State.Inv.followup (h.setPt hi _ _) hi k pl e
  | resolve f tag _ hb hi _ => exact h.resolve hi (room hb) _ _ tag

/-- Every step keeps the invariant. -/
theorem step_keeps_inv {t : State} (h : s.Inv) (hstep : step s = .next t) : t.Inv := by
  rcases step_effect hstep with ⟨-, rfl⟩ | ⟨-, rfl⟩ | ⟨-, rc, w, d, rfl⟩ | ⟨-, i, -, he, hroom⟩
  · exact inv_resetCore h.config h.frames
  · exact h
  · exact h.nextEvent.respond rc w d
  · exact he.keeps_inv h.nextEvent (by simpa using hroom)

end Sys2Proof.Machine

open Sys2Proof Sys2Proof.Machine

/-- Settles O48: by `step_keeps_inv`, an inbound frame being taken only while EVQ has room. -/
theorem stepKeepsTheInvariant : Obligations.StepKeepsTheInvariant := fun _ _ h hstep => step_keeps_inv h hstep

/-- Settles O47: the state right after reset is what a reset makes of itself. -/
theorem invariantAtReset : Obligations.InvariantAtReset :=
  inv_resetCore (s := State.reset) Config.params_wf (by simp [State.reset])
end

section
/-! What each effect of an instruction leaves alone, register by register (10_state.md R30 to R41), and what it answers and
sends (R48 to R50); and which event a step takes (R51, R287). The statements of the family 10_state.md follow from these. -/

namespace Sys2Proof.Machine

open Sys2Proof

-- What the compound operations leave

section

variable (s : State) (c : Byte) (e : PtEntry) (tag : Tag)

@[simp] theorem State.resolve_ctr : (s.resolve c e tag).ctr = s.ctr := by simp [State.resolve]
@[simp] theorem State.resolve_initDone : (s.resolve c e tag).initDone = s.initDone := by simp [State.resolve]
@[simp] theorem State.resolve_status : (s.resolve c e tag).status = ((s.clearPt c).tcInsert e.uid tag).status := rfl
@[simp] theorem State.resolve_tc : (s.resolve c e tag).tc = ((s.clearPt c).tcInsert e.uid tag).tc := rfl
@[simp] theorem State.resolve_cfg : (s.resolve c e tag).cfg = s.cfg := by simp [State.resolve]
@[simp] theorem State.resolve_hostq : (s.resolve c e tag).hostq = s.hostq := by simp [State.resolve]
@[simp] theorem State.resolve_rxq : (s.resolve c e tag).rxq = s.rxq := by simp [State.resolve]
@[simp] theorem State.resolve_rst : (s.resolve c e tag).rst = s.rst := by simp [State.resolve]
@[simp] theorem State.resolve_turns : (s.resolve c e tag).turns = s.turns := by simp [State.resolve]
@[simp] theorem State.resolve_responses : (s.resolve c e tag).responses = s.responses := by simp [State.resolve]
@[simp] theorem State.resolve_txLog : (s.resolve c e tag).txLog = s.txLog := by simp [State.resolve]

/-- A host send counts (R144). -/
@[simp] theorem State.hostSend_ctr (opc len : Byte) (pl : List Byte) : (s.hostSend opc len pl).ctr = s.ctr + 1 := by
  simp [State.hostSend]

/-- A host request for the INIT frame leaves INIT_DONE or sets it (R150). -/
theorem State.hostInit_initDone : s.hostInit.initDone = s.initDone ∨ s.hostInit.initDone = true := by
  rcases hostInit_cases s with ⟨-, h⟩ | ⟨-, -, h⟩ | ⟨-, -, -, h⟩ | ⟨-, -, -, h⟩ <;> simp [h]

end

-- One effect

section

variable {i : Instr} {s t : State}

/-- No instruction writes the configuration, what HOST and the transport offer, the reset input or the coming draws
(R30, R44, R46). -/
theorem Effect.keeps_offered (e : Effect i s t) :
    t.cfg = s.cfg ∧ t.hostq = s.hostq ∧ t.rxq = s.rxq ∧ t.rst = s.rst ∧ t.turns = s.turns := by
  cases e <;> simp

/-- Only the end of an identification writes TC, by TCInsert (R39, R220, R223). -/
theorem Effect.tc_cases (e : Effect i s t) :
    t.tc = s.tc ∨ (inbound i = true ∧ ∃ c uid tag, t.tc = ((s.clearPt c).tcInsert uid tag).tc) := by
  cases e with
  | resolve f tag _ hb => exact .inr ⟨hb, _, _, _, State.resolve_tc ..⟩
  | _ => left; simp

/-- No instruction removes or replaces what TC holds for a uid (R39, R86). -/
theorem Effect.keeps_tcLookup (e : Effect i s t) {uid : Uid} {tag : Tag} (h : s.tcLookup uid = some tag) :
    t.tcLookup uid = some tag := by
  rcases e.tc_cases with htc | ⟨-, c, u, x, htc⟩
  · rwa [State.tcLookup, htc]
  · rw [State.tcLookup, htc]
    exact tcInsert_keeps (s.clearPt c) u uid x tag h

/-- INIT_DONE changes only in the INIT send, from 0 to 1 (R32). -/
theorem Effect.initDone_cases (e : Effect i s t) :
    t.initDone = s.initDone ∨ (t.initDone = true ∧ (i = .txInit ∨ i = .wireInit)) := by
  cases e with
  | init hi => exact s.hostInit_initDone.imp_right fun h => ⟨h, hi⟩
  | _ => left; simp

/-- CTR is left, or counts one SEND after INIT (R31). -/
theorem Effect.ctr_cases (e : Effect i s t) :
    t.ctr = s.ctr ∨ (t.ctr = s.ctr + 1 ∧ sends i = true ∧ s.initDone = true) := by
  cases e with
  | send opc len pl _ hs hi => exact .inr ⟨by simp, hs, hi⟩
  | ask f k pl e _ _ hs hi => exact .inr ⟨by simp, hs, hi⟩
  | askAgain f k pl e _ _ hs hi => exact .inr ⟨by simp, hs, hi⟩
  | _ => left; simp

/-- What a host operation does to PT, CTRL and EVQ (R36, R37, R41). -/
theorem Effect.host_tables (e : Effect i s t) (hb : inbound i = false) :
    t.pt = s.pt ∧ (t.ctrl = s.ctrl ∨ ∃ v, i = .ctrlWrite v) ∧
    (t.evq = s.evq ∨ (i = .evtPop ∧ t.evq = s.evq.tail)) := by
  cases e with
  | answer | send | init | clear => simp
  | pop r rest hi hq => simp [hi, hq]
  | ctrl v hi => simp [hi]
  | drop _ h | cksum h | event _ _ _ _ h | ask _ _ _ _ _ h | askAgain _ _ _ _ _ h | resolve _ _ _ h => simp [hb] at h

-- The sticky flags

/-- Every sticky flag set in one STATUS word is set in another. -/
def FlagsKept (st st' : BitVec 16) : Prop := ∀ f, flagOf st f = true → flagOf st' f = true

theorem FlagsKept.refl (st : BitVec 16) : FlagsKept st st := fun _ h => h

theorem FlagsKept.trans {a b c : BitVec 16} (hab : FlagsKept a b) (hbc : FlagsKept b c) : FlagsKept a c :=
  fun f h => hbc f (hab f h)

theorem flagsKept_withFlag (st : BitVec 16) (f : Flag) : FlagsKept st (withFlag st f) := fun g h => by
  simp [flagOf_withFlag, h]

theorem flagsKept_withLastDrop (st : BitVec 16) (code : BitVec 4) : FlagsKept st (withLastDrop st code) := fun g h => by
  rwa [flagOf_withLastDrop]

theorem flagsKept_setFlag (s : State) (f : Flag) : FlagsKept s.status (s.setFlag f).status := flagsKept_withFlag _ _

theorem flagsKept_setFlagIf (s : State) (b : Bool) (f : Flag) : FlagsKept s.status (s.setFlagIf b f).status := by
  cases b
  · exact .refl _
  · exact flagsKept_setFlag s f

theorem flagsKept_dropFrame (s : State) (r : DropReason) : FlagsKept s.status (s.dropFrame r).status :=
  (flagsKept_withFlag _ _).trans (flagsKept_withLastDrop _ _)

theorem flagsKept_send (s : State) (opc len : Byte) (pl : List Byte) : FlagsKept s.status (s.send opc len pl).next.status := by
  have hpsm := flagsKept_setFlagIf { s with ctr := s.ctr + 1 } (payloadMismatch len pl) .psm
  rcases send_cases s opc len pl with ⟨-, h⟩ | ⟨-, -, h⟩ | ⟨-, -, h⟩ <;> rw [h]
  · exact hpsm.trans (flagsKept_setFlag _ _)
  · exact hpsm.trans (flagsKept_withFlag _ _)
  · exact hpsm

theorem flagsKept_hostInit (s : State) : FlagsKept s.status s.hostInit.status := by
  have hpsm := flagsKept_setFlagIf s (payloadMismatch s.cfg.initLen s.cfg.initPayload) .psm
  rcases hostInit_cases s with ⟨-, h⟩ | ⟨-, -, h⟩ | ⟨-, -, -, h⟩ | ⟨-, -, -, h⟩ <;> rw [h]
  · exact .refl _
  · exact hpsm.trans (flagsKept_setFlag _ _)
  · exact hpsm.trans (flagsKept_withFlag _ _)
  · exact hpsm

theorem flagsKept_followup (s : State) (k : Nat) (pl : List Byte) (e : PtEntry) :
    FlagsKept s.status (s.followup k pl e).status := by
  have hs := flagsKept_send s (catalogRow s.cfg k).opc (catalogRow s.cfg k).len pl
  unfold State.followup
  dsimp only
  split
  · exact hs.trans (flagsKept_setFlagIf _ _ _)
  all_goals exact hs.trans (flagsKept_setFlag _ _)

theorem flagsKept_tcInsert (s : State) (uid : Uid) (tag : Tag) : FlagsKept s.status (s.tcInsert uid tag).status := by
  rcases tcInsert_cases s uid tag with ⟨-, h⟩ | ⟨-, -, h⟩ | ⟨-, -, h⟩ <;> rw [h]
  · exact .refl _
  · exact flagsKept_setFlag _ _
  · exact .refl _

/-- Every instruction keeps the sticky flags, but a STATUS_CLEAR (R33). -/
theorem Effect.flags_cases (e : Effect i s t) :
    FlagsKept s.status t.status ∨ ∃ mask, i = .statusClear mask ∧ t.status = clearedStatus s.status mask := by
  cases e with
  | clear mask hi => exact .inr ⟨mask, hi, rfl⟩
  | answer | pop | ctrl | event => exact .inl (.refl _)
  | send opc len pl => exact .inl (flagsKept_send s opc len pl)
  | init => exact .inl (flagsKept_hostInit s)
  | drop r => exact .inl (flagsKept_dropFrame s r)
  | cksum => exact .inl ((flagsKept_setFlag s .rxcksum).trans (flagsKept_dropFrame _ _))
  | ask f k pl e => exact .inl (flagsKept_followup s k pl e)
  | askAgain f k pl e => exact .inl (flagsKept_followup (s.clearPt _) k pl e)
  | resolve f tag => exact .inl (flagsKept_tcInsert (s.clearPt _) _ tag)

-- Responses and transmissions

/-- At most one frame more was passed to Transmit, of 32 bytes and with TX's next answer (R50, R143). -/
def SentAtMostOne (s t : State) : Prop :=
  t.txLog = s.txLog ∨ ∃ f, t.txLog = s.txLog ++ [(f, s.nextTxAnswer)] ∧ f.length = 32

theorem sentAtMostOne_send (s : State) (opc len : Byte) (pl : List Byte) : SentAtMostOne s (s.send opc len pl).next :=
  (s.send_next_txLog opc len pl).imp_right fun ⟨hl, h⟩ => ⟨_, h, by rw [assemble_length, if_pos hl]⟩

theorem sentAtMostOne_hostInit (s : State) : SentAtMostOne s s.hostInit := by
  have hlen (hl : s.cfg.initPayload.length ≤ 27) : (initFrame s.cfg).length = 32 := by
    rw [initFrame, commandFrame, assemble_length, if_pos hl]
  rcases hostInit_cases s with ⟨-, h⟩ | ⟨-, -, h⟩ | ⟨-, hl, -, h⟩ | ⟨-, hl, -, h⟩ <;> rw [h]
  · exact .inl rfl
  · exact .inl (by simp)
  all_goals exact .inr ⟨_, by simp [State.nextTxAnswer], hlen hl⟩

theorem sentAtMostOne_followup (s : State) (k : Nat) (pl : List Byte) (e : PtEntry) :
    SentAtMostOne s (s.followup k pl e) := by
  rw [SentAtMostOne, State.followup_txLog]
  exact sentAtMostOne_send ..

theorem Effect.sentAtMostOne (e : Effect i s t) : SentAtMostOne s t := by
  cases e with
  | send opc len pl => exact sentAtMostOne_send s opc len pl
  | init => exact sentAtMostOne_hostInit s
  | ask f k pl e => exact sentAtMostOne_followup s k pl e
  | askAgain f k pl e => exact sentAtMostOne_followup (s.clearPt _) k pl e
  | _ => left; simp

/-- TX_INIT answers once (R150). -/
theorem State.hostInit_responses (s : State) : ∃ rc w d, s.hostInit.responses = s.responses ++ [rc :: w :: d] := by
  rcases hostInit_cases s with ⟨-, h⟩ | ⟨-, -, h⟩ | ⟨-, -, -, h⟩ | ⟨-, -, -, h⟩ <;>
    rw [h, State.respond_responses]
  all_goals exact ⟨_, _, _, congrArg (· ++ _) (by simp)⟩

/-- A host operation answers once, an inbound frame never (R49, R104, R210). -/
theorem Effect.responses_cases (e : Effect i s t) :
    if inbound i then t.responses = s.responses else ∃ rc w d, t.responses = s.responses ++ [rc :: w :: d] := by
  cases e with
  | answer rc w d hb => rw [hb]; exact ⟨_, _, _, rfl⟩
  | send opc len pl hb => rw [hb]; exact ⟨_, _, _, congrArg (· ++ _) (s.send_next_responses opc len pl)⟩
  | init hi =>
    have hb : inbound i = false := by rcases hi with rfl | rfl <;> rfl
    rw [hb]; exact s.hostInit_responses
  | pop r rest hi | clear mask hi | ctrl v hi => subst hi; exact ⟨_, _, _, rfl⟩
  | drop _ hb | cksum hb | event _ _ _ _ hb | ask _ _ _ _ _ hb | askAgain _ _ _ _ _ hb | resolve _ _ _ hb => simp [hb]

end

-- The next event of a step

section

variable {s : State}

/-- HOST's item is next where no frame is enabled, or where the draw is HOST's (R51, R287). -/
theorem nextEvent_eq_host {x : HostItem} {hs : List HostItem} (hr : s.rst = false) (hq : s.hostq = x :: hs) :
    ((s.rxq = [] ∨ evqDepth s.cfg ≤ s.evq.length) → s.nextEvent = (.host x, { s with hostq := hs })) ∧
    (s.rxq ≠ [] → s.evq.length < evqDepth s.cfg → s.nextTurn = .host →
      s.nextEvent = (.host x, { s.useTurn with hostq := hs })) := by
  refine ⟨fun hx => ?_, fun hne room turn => ?_⟩
  · cases hf : s.rxq with
    | nil => simp [State.nextEvent, hr, hq, hf]
    | cons f fs =>
      have hfull : evqDepth s.cfg ≤ s.evq.length := by simpa [hf] using hx
      have hroom : s.evqRoom = false := Bool.eq_false_iff.2 fun h => absurd ((evqRoom_iff s).1 h) (by omega)
      simp [State.nextEvent, hr, hq, hf, hroom]
  · obtain ⟨f, fs, hf⟩ := List.exists_cons_of_ne_nil hne
    simp [State.nextEvent, hr, hq, hf, (evqRoom_iff s).2 room, turn]

/-- The oldest frame is next while EVQ has room, where no request is outstanding or where the draw is RX's (R51, R287). -/
theorem nextEvent_eq_frame {f : Frame} {fs : List Frame} (hr : s.rst = false) (hf : s.rxq = f :: fs)
    (room : s.evq.length < evqDepth s.cfg) :
    (s.hostq = [] → s.nextEvent = (.frame f, { s with rxq := fs })) ∧
    (s.hostq ≠ [] → s.nextTurn = .rx → s.nextEvent = (.frame f, { s.useTurn with rxq := fs })) := by
  have hroom := (evqRoom_iff s).2 room
  refine ⟨fun hq => ?_, fun hne turn => ?_⟩
  · simp [State.nextEvent, hr, hq, hf, hroom]
  · obtain ⟨x, hs, hq⟩ := List.exists_cons_of_ne_nil hne
    simp [State.nextEvent, hr, hq, hf, hroom, turn]

variable {t : State}

theorem step_of_request {b : List Byte} {i : Instr} (h : s.nextEvent = (.host (.request b), t))
    (hd : decodeRequest b = .ok i) : step s = exec i t := by
  simp [step, h, hd]

theorem step_of_command {f : Frame} {i : Instr} (h : s.nextEvent = (.host (.command f), t))
    (hd : decodeCommand t.cfg f.toList = .ok i) : step s = exec i t := by
  simp [step, h, hd]

theorem step_of_frame {f : Frame} (h : s.nextEvent = (.frame f, t)) : step s = exec (decodeFrame f) t := by
  simp [step, h]

end

end Sys2Proof.Machine

open Sys2Proof Sys2Proof.Machine

/-- Settles O4: by `nextEvent_eq_host` the outstanding item is the next event, and it decodes to `i`. -/
theorem stepRunsTheDecodedRequest : Obligations.StepRunsTheDecodedRequest := by
  refine ⟨fun s b hs i hr hq hd => ?_, fun s f hs i hr hq hd => ?_⟩ <;>
    obtain ⟨alone, drawn⟩ := nextEvent_eq_host hr hq
  · exact ⟨fun hx => step_of_request (alone hx) hd, fun hx room turn => step_of_request (drawn hx room turn) hd⟩
  · exact ⟨fun hx => step_of_command (alone hx) hd, fun hx room turn => step_of_command (drawn hx room turn) hd⟩

/-- Settles O5: by `nextEvent_eq_frame` the oldest frame is the next event. -/
theorem stepRunsTheClassifiedFrame : Obligations.StepRunsTheClassifiedFrame := fun s f fs hr hf room => by
  obtain ⟨alone, drawn⟩ := nextEvent_eq_frame hr hf room
  exact ⟨fun hq => step_of_frame (alone hq), fun hq turn => step_of_frame (drawn hq turn)⟩

/-- Settles O49: a reset keeps the configuration, and every effect does. -/
theorem noStepWritesTheConfiguration : Obligations.NoStepWritesTheConfiguration := fun s t h => by
  rcases step_effect h with ⟨-, rfl⟩ | ⟨-, rfl⟩ | ⟨-, rc, w, d, rfl⟩ | ⟨-, i, -, he, -⟩
  · rfl
  · rfl
  · simp
  · rw [he.keeps_offered.1, nextEvent_cfg]

/-- Settles O50: the only write of TC is TCInsert, which never replaces. -/
theorem cacheNeverForgets : Obligations.CacheNeverForgets := fun s t uid tag hr h hfound => by
  have hnext : s.nextEvent.2.tcLookup uid = some tag := by rwa [State.tcLookup, nextEvent_tc]
  rcases step_effect h with ⟨hr', -⟩ | ⟨-, rfl⟩ | ⟨-, rc, w, d, rfl⟩ | ⟨-, i, -, he, -⟩
  · simp [hr] at hr'
  · exact hfound
  · exact hnext
  · exact he.keeps_tcLookup hnext

/-- Settles O51: by `Effect.initDone_cases`, the one effect that writes INIT_DONE sets it. -/
theorem initDoneStaysUntilReset : Obligations.InitDoneStaysUntilReset := by
  refine ⟨fun s t hr hi h => ?_, fun i s t h hne => ?_⟩
  · rcases step_effect h with ⟨hr', -⟩ | ⟨-, rfl⟩ | ⟨-, rc, w, d, rfl⟩ | ⟨-, i, -, he, -⟩
    · simp [hr] at hr'
    · exact hi
    · simpa using hi
    · rcases he.initDone_cases with hsame | ⟨hset, -⟩
      · simpa [hsame] using hi
      · exact hset
  · rcases (effect_of_exec h).initDone_cases with hsame | ⟨-, hinit⟩
    · exact absurd hsame hne
    · exact hinit

/-- Settles O52: every change of STATUS but STATUS_CLEAR's keeps the flags, and that one clears what its mask selects. -/
theorem stickyFlagsStay : Obligations.StickyFlagsStay := fun i s t f h hset => by
  rcases (effect_of_exec h).flags_cases with hkept | ⟨mask, hi, hst⟩
  · exact .inl (hkept f hset)
  · cases hm : mask.getLsbD f.bit
    · left; rw [hst, flagOf_clearedStatus, hset, hm]; rfl
    · exact .inr ⟨mask, hi, hm⟩

/-- Settles O53: by `Effect.ctr_cases`, a step's other ends being the reset and those that leave CTR. -/
theorem counterOnlyCountsSends : Obligations.CounterOnlyCountsSends := by
  refine ⟨fun i s t h => (effect_of_exec h).ctr_cases, fun s t h => ?_⟩
  rcases step_effect h with ⟨hr, rfl⟩ | ⟨-, rfl⟩ | ⟨-, rc, w, d, rfl⟩ | ⟨-, i, -, he, -⟩
  · exact .inr (.inr ⟨hr, rfl⟩)
  · exact .inl rfl
  · exact .inl (by simp)
  · rcases he.ctr_cases with hsame | ⟨hsent, -⟩
    · exact .inl (by simpa using hsame)
    · exact .inr (.inl (by simpa using hsent))

/-- Settles O54: TC is written only by an inbound frame's effect, the other tables by `Effect.host_tables`. -/
theorem hostOperationsKeepTheTables : Obligations.HostOperationsKeepTheTables := fun i s t hb h => by
  have he := effect_of_exec h
  obtain ⟨hpt, hctrl, hevq⟩ := he.host_tables hb
  have htc : t.tc = s.tc := he.tc_cases.resolve_right fun ⟨hb', _⟩ => by simp [hb] at hb'
  exact ⟨hpt, htc, hctrl, hevq⟩

/-- Settles O55: by the effect of the instruction; Transmit's own effect is its definition. -/
theorem eachStepAnswersAndSendsAtMostOnce : Obligations.EachStepAnswersAndSendsAtMostOnce := by
  refine ⟨fun i s t h => ?_, fun s f => ?_, fun s a as h => ?_⟩
  · have he := effect_of_exec h
    exact ⟨he.responses_cases, he.sentAtMostOne, he.keeps_offered.2⟩
  · simp only [State.transmit, List.isEmpty_iff]
  · simp [State.nextTxAnswer, h]
end

section
/-! The event queue (20_memory.md R81, 10_state.md R41): what each effect of an instruction does to EVQ, and what a step does. -/

namespace Sys2Proof.Machine

open Sys2Proof

/-- An identification ends by appending its one record (R220, R223). -/
@[simp] theorem State.resolve_evq (s : State) (c : Byte) (e : PtEntry) (tag : Tag) :
    (s.resolve c e tag).evq =
      s.evq ++ [{ pad := e.pad, action := .added, tag := some tag, device := s.cfg.deviceIndex, uid := e.uid }] := by
  simp [State.resolve]

/-- EVQ is left, gains one record at its end, or gives up its first one, whose bytes are answered (R41, R81). -/
theorem Effect.evq_cases {i : Instr} {s t : State} (e : Effect i s t) :
    t.evq = s.evq ∨ (∃ r, t.evq = s.evq ++ [r]) ∨
    ∃ r, s.evq = r :: t.evq ∧ t.responses = s.responses ++ [[0x00, 0x00] ++ recordBytes r] := by
  cases e with
  | event pad a uid tag => exact .inr (.inl ⟨_, s.push_evq pad a uid tag⟩)
  | resolve f tag => exact .inr (.inl ⟨_, s.resolve_evq _ _ tag⟩)
  | pop r rest _ hq => exact .inr (.inr ⟨r, hq, rfl⟩)
  | _ => left; simp

end Sys2Proof.Machine

open Sys2Proof Sys2Proof.Machine

/-- Settles O58: by `Effect.evq_cases`, a step's other ends being the reset and those that leave EVQ. -/
theorem eventQueueIsFifo : Obligations.EventQueueIsFifo := fun s t h => by
  rcases step_effect h with ⟨hr, rfl⟩ | ⟨-, rfl⟩ | ⟨-, rc, w, d, rfl⟩ | ⟨-, i, -, he, -⟩
  · exact .inr (.inr (.inr ⟨hr, s.resetCore_evq⟩))
  · exact .inl rfl
  · exact .inl (by simp)
  · have hcases := he.evq_cases
    rw [nextEvent_evq, nextEvent_responses] at hcases
    exact hcases.imp_right (Or.imp_right .inl)
end

section
/-! Words and instructions (30_encoding.md R91, R100, R101, R107 to R124, R126, R128). The decoder reads back what
`encode` wrote, and the words of what it reads from a request are that request. -/

namespace Sys2Proof

open Sys2Proof.Machine Sys2Proof.Laws.Encoding

-- Requests of the right length

/-- A request with the length R128 gives its OP is read by its format. -/
theorem decodeRequest_eq_reqInstr {b : List Byte} (h : reqLen b = some b.length) : decodeRequest b = reqInstr b := by
  have hne : b.length ≠ 0 := fun h0 => by
    obtain rfl := List.length_eq_zero_iff.1 h0
    cases h
  rw [decodeRequest, if_neg hne, h]
  exact if_pos rfl

/-- An accepted request has the length R128 gives its OP, and is read by its format (R259). -/
theorem decodeRequest_ok {b : List Byte} {i : Instr} (h : decodeRequest b = .ok i) :
    reqLen b = some b.length ∧ reqInstr b = .ok i := by
  unfold decodeRequest at h
  split at h
  · cases h
  split at h
  · cases h
  split at h
  · rename_i hlen heq
    exact ⟨by rw [heq, hlen], h⟩
  · cases h

/-- Request words that are in order decode by their format. -/
theorem decode_requestCode {cfg : Cfg} {i : Instr} {b : List Byte} (h : WordsOk cfg i (requestCode b)) :
    decode cfg (requestCode b) = reqInstr b := decodeRequest_eq_reqInstr h

/-- A byte-string operand at the end of a request is read back. -/
theorem bytesAt_append_toList {n : Nat} (p : List Byte) (v : Vector Byte n) : bytesAt n (p ++ v.toList) p.length = v := by
  simpa using bytesAt_append n v p []

-- Command frames

/-- The command frame of a row that its opcode selects decodes to that row's wire command, with the bytes from byte 4 on that the
row's length declares (R91, R93, R100). -/
theorem decode_commandFrame {cfg : Cfg} {k : Nat} (hk : kindOfOpcode cfg (catalogRow cfg k).opc = some k) (c : Byte)
    (pl : List Byte) :
    decode cfg (.host (.command (bytesAt 32 (commandFrame cfg k c pl) 0))) =
      wireInstr k (((bytesAt 32 (commandFrame cfg k c pl) 0).toList.drop 4).take ((catalogRow cfg k).len.toNat - 2)) := by
  have header (i : Nat) (hi : i < 32) :
      (bytesAt 32 (commandFrame cfg k c pl) 0).toList.getD i 0 = (commandFrame cfg k c pl).getD i 0 := by
    rw [List.getD_eq_getElem _ _ (by simpa using hi), Vector.getElem_toList, bytesAt_getElem, Nat.zero_add]
  have h0 := header 0 (by decide)
  have h1 := header 1 (by decide)
  have h2 := header 2 (by decide)
  simp only [commandFrame, assemble_eq, List.getD_cons_zero, List.getD_cons_succ] at h0 h1 h2
  simp only [decode, decodeCommand, commandFrame, assemble_eq, h0, h1, h2, hk, and_self, if_true]

/-- A payload of at most 27 bytes stands in its command frame from byte 4 on (R91). -/
theorem commandFrame_payload (cfg : Cfg) (k : Nat) (c : Byte) {pl : List Byte} (hpl : pl.length ≤ 27) :
    ((bytesAt 32 (commandFrame cfg k c pl) 0).toList.drop 4).take pl.length = pl := by
  have hlen : (commandFrame cfg k c pl).length = 32 := by rw [commandFrame, assemble_length, if_pos hpl]
  rw [bytesAt_toList _ _ _ hlen.ge, List.drop_zero, ← hlen, List.take_length, commandFrame, assemble_eq]
  exact List.take_left

/-- A wire command with words of its own reads back its kind and its payload. -/
theorem decode_commandCode {cfg : Cfg} {k : Nat} {pl : List Byte} (h : wireWf cfg k pl = true) :
    decode cfg (commandCode cfg k pl) = wireInstr k pl := by
  simp only [wireWf, Bool.and_eq_true, beq_iff_eq, decide_eq_true_eq] at h
  obtain ⟨⟨hk, hlen⟩, hpl⟩ := h
  rw [commandCode, decode_commandFrame hk, ← hlen, Nat.add_sub_cancel, commandFrame_payload _ _ _ hpl]

-- The bytes of a request from a position on: those of the operand read there, then those from the position after it

section Operands

variable {b : List Byte} {k : Nat}

theorem byte_drop (h : k < b.length) : b.getD k 0 :: b.drop (k + 1) = b.drop k := by
  rw [List.getD_eq_getElem _ _ h, List.cons_getElem_drop_succ]

theorem le16_drop (h : k + 2 ≤ b.length) :
    le16Bytes (le16 (b.getD k 0) (b.getD (k + 1) 0)) ++ b.drop (k + 2) = b.drop k := by
  rw [le16Bytes_le16, ← byte_drop (k := k) (by omega), ← byte_drop (k := k + 1) (by omega)]
  rfl

theorem wordAt_drop (h : k + 4 ≤ b.length) : le32Bytes (wordAt b k) ++ b.drop (k + 4) = b.drop k := by
  rw [wordAt, le32Bytes_le32, ← byte_drop (k := k) (by omega), ← byte_drop (k := k + 1) (by omega),
    ← byte_drop (k := k + 2) (by omega), ← byte_drop (k := k + 3) (by omega)]
  rfl

/-- The two Words of TEA_ENCIPHER and TEA_DECIPHER (R109, R110). -/
theorem words_drop (h : b.length = 9) : le32Bytes (wordAt b 1) ++ le32Bytes (wordAt b 5) = b.drop 1 := by
  rw [← wordAt_drop (k := 1) (by omega), ← wordAt_drop (k := 5) (by omega), List.drop_eq_nil_of_le h.le, List.append_nil]

/-- A byte-string operand that ends its request. -/
theorem bytesAt_drop {n : Nat} (h : b.length = k + n) : (bytesAt n b k).toList = b.drop k := by
  rw [bytesAt_toList _ _ _ h.ge, List.take_of_length_le (by simp [h])]

/-- A payload that ends its request, after its count byte: it is countable, and the count byte gives its length (R115 to R117). -/
theorem payload_drop (h : b.length = k + 1 + (b.getD k 0).toNat) :
    countable (b.drop (k + 1)) = true ∧ BitVec.ofNat 8 (b.drop (k + 1)).length :: b.drop (k + 1) = b.drop k := by
  have hcount : (b.drop (k + 1)).length = (b.getD k 0).toNat := by rw [List.length_drop, h, Nat.add_sub_cancel_left]
  refine ⟨?_, by rw [hcount, BitVec.ofNat_toNat, BitVec.setWidth_eq, byte_drop (by omega)]⟩
  have := (b.getD k 0).isLt
  simp only [countable, decide_eq_true_eq]
  omega

/-- A request is its OP and the bytes after it. -/
theorem requestCode_op {op : Byte} (hop : (b.getD 0 0).toNat = op.toNat) {l : List Byte} (h : 0 < b.length)
    (hl : l = b.drop 1) : requestCode (op :: l) = .host (.request b) := by
  rw [requestCode, hl, ← BitVec.eq_of_toNat_eq hop, byte_drop h, List.drop_zero]

end Operands

end Sys2Proof

open Sys2Proof Sys2Proof.Machine Sys2Proof.Laws

/-- Settles O9: a request has its OP's length and its operands are read back, a frame has its class, and a command frame's opcode
selects its row. -/
theorem decodeUndoesEncode : Obligations.DecodeUndoesEncode := by
  intro cfg i h
  cases i with
  | nop => exact decode_requestCode (Encoding.nop cfg h)
  | teaEncipher v0 v1 =>
    exact (decode_requestCode (Encoding.teaEncipher v0 v1 cfg h)).trans
      (congrArg₂ (Decoded.ok <| .teaEncipher · ·) (le32_le32Bytes v0) (le32_le32Bytes v1))
  | teaDecipher v0 v1 =>
    exact (decode_requestCode (Encoding.teaDecipher v0 v1 cfg h)).trans
      (congrArg₂ (Decoded.ok <| .teaDecipher · ·) (le32_le32Bytes v0) (le32_le32Bytes v1))
  | teaEncode v =>
    exact (decode_requestCode (Encoding.teaEncode v cfg h)).trans
      (congrArg (Decoded.ok <| .teaEncode ·) (bytesAt_append_toList [0x03] v))
  | teaDecode v =>
    exact (decode_requestCode (Encoding.teaDecode v cfg h)).trans
      (congrArg (Decoded.ok <| .teaDecode ·) (bytesAt_append_toList [0x04] v))
  | frmChecksum p f =>
    exact (decode_requestCode (Encoding.frmChecksum p f cfg h)).trans
      (congrArg (Decoded.ok <| .frmChecksum p ·) (bytesAt_append_toList [0x10, p] f))
  | frmVerify f =>
    exact (decode_requestCode (Encoding.frmVerify f cfg h)).trans
      (congrArg (Decoded.ok <| .frmVerify ·) (bytesAt_append_toList [0x11] f))
  | frmAssemble pfx opc len c pl => exact decode_requestCode (Encoding.frmAssemble pfx opc len c pl cfg h)
  | txCommand k pl => exact decode_requestCode (Encoding.txCommand k pl cfg h)
  | txRaw opc len pl => exact decode_requestCode (Encoding.txRaw opc len pl cfg h)
  | txInit => exact decode_requestCode (Encoding.txInit cfg h)
  | evtPop => exact decode_requestCode (Encoding.evtPop cfg h)
  | cacheLookup uid =>
    exact (decode_requestCode (Encoding.cacheLookup uid cfg h)).trans
      (congrArg (Decoded.ok <| .cacheLookup ·) (bytesAt_append_toList [0x21] uid))
  | ptRead c => exact decode_requestCode (Encoding.ptRead c cfg h)
  | statusRead => exact decode_requestCode (Encoding.statusRead cfg h)
  | statusClear mask =>
    exact (decode_requestCode (Encoding.statusClear mask cfg h)).trans
      (congrArg (Decoded.ok <| .statusClear ·) (le16_le16Bytes mask))
  | ctrlWrite v => exact decode_requestCode (Encoding.ctrlWrite v cfg h)
  | rxEvent f => exact congrArg Decoded.ok (Encoding.rxEvent f cfg h)
  | rxReadReply f => exact congrArg Decoded.ok (Encoding.rxReadReply f cfg h)
  | rxModelReply f => exact congrArg Decoded.ok (Encoding.rxModelReply f cfg h)
  | rxBadMarker f => exact congrArg Decoded.ok (Encoding.rxBadMarker f cfg h)
  | rxBadPrefix f => exact congrArg Decoded.ok (Encoding.rxBadPrefix f cfg h)
  | wireInit => exact decode_commandFrame (k := 0x09) (eq_of_beq h) 0x01 cfg.initPayload
  | wireSwitchPad | wireFadePad | wireFlashPad | wireSwitchPads | wireFadePads | wireFlashPads | wireFadeRandom | wireRead
      | wireListModel | wireSeed | wireChallenge | wireUnnamed0C | wireUnnamed0D => exact decode_commandCode h

/-- Settles O10: the length and the OP of an accepted request select its format, and each format's operands are all its bytes. -/
theorem acceptedRequestsAreEncodings : Obligations.AcceptedRequestsAreEncodings := by
  intro cfg b i h
  obtain ⟨hlen, hr⟩ := decodeRequest_ok h
  unfold reqInstr at hr
  unfold reqLen at hlen
  split at hr <;> rename_i hop <;> simp only [hop, Option.some.injEq] at hlen <;> cases hr
  · -- NOP
    exact ⟨rfl, requestCode_op hop (by omega) (List.drop_eq_nil_of_le hlen.ge).symm⟩
  · -- TEA_ENCIPHER
    exact ⟨rfl, requestCode_op hop (by omega) (words_drop hlen.symm)⟩
  · -- TEA_DECIPHER
    exact ⟨rfl, requestCode_op hop (by omega) (words_drop hlen.symm)⟩
  · -- TEA_ENCODE
    exact ⟨rfl, requestCode_op hop (by omega) (bytesAt_drop hlen.symm)⟩
  · -- TEA_DECODE
    exact ⟨rfl, requestCode_op hop (by omega) (bytesAt_drop hlen.symm)⟩
  · -- FRM_CHECKSUM
    exact ⟨rfl, requestCode_op hop (by omega) (by rw [bytesAt_drop hlen.symm, byte_drop (by omega)])⟩
  · -- FRM_VERIFY
    exact ⟨rfl, requestCode_op hop (by omega) (bytesAt_drop hlen.symm)⟩
  · -- FRM_ASSEMBLE
    obtain ⟨hwf, hpl⟩ := payload_drop (k := 5) hlen.symm
    refine ⟨hwf, requestCode_op hop (by omega) ?_⟩
    rw [← byte_drop (k := 1) (by omega), ← byte_drop (k := 2) (by omega), ← byte_drop (k := 3) (by omega),
      ← byte_drop (k := 4) (by omega), ← hpl]
    rfl
  · -- TX_COMMAND
    obtain ⟨hwf, hpl⟩ := payload_drop (k := 2) hlen.symm
    refine ⟨hwf, requestCode_op hop (by omega) ?_⟩
    rw [← byte_drop (k := 1) (by omega), ← hpl]
    rfl
  · -- TX_RAW
    obtain ⟨hwf, hpl⟩ := payload_drop (k := 3) hlen.symm
    refine ⟨hwf, requestCode_op hop (by omega) ?_⟩
    rw [← byte_drop (k := 1) (by omega), ← byte_drop (k := 2) (by omega), ← hpl]
    rfl
  · -- TX_INIT
    exact ⟨rfl, requestCode_op hop (by omega) (List.drop_eq_nil_of_le hlen.ge).symm⟩
  · -- EVT_POP
    exact ⟨rfl, requestCode_op hop (by omega) (List.drop_eq_nil_of_le hlen.ge).symm⟩
  · -- CACHE_LOOKUP
    exact ⟨rfl, requestCode_op hop (by omega) (bytesAt_drop hlen.symm)⟩
  · -- PT_READ
    exact ⟨rfl, requestCode_op hop (by omega) (by rw [← byte_drop (by omega), List.drop_eq_nil_of_le hlen.ge])⟩
  · -- STATUS_READ
    exact ⟨rfl, requestCode_op hop (by omega) (List.drop_eq_nil_of_le hlen.ge).symm⟩
  · -- STATUS_CLEAR
    exact ⟨rfl, requestCode_op hop (by omega)
      (by rw [← le16_drop (by omega), List.drop_eq_nil_of_le hlen.ge, List.append_nil])⟩
  · -- CTRL_WRITE
    exact ⟨rfl, requestCode_op hop (by omega) (by rw [← byte_drop (by omega), List.drop_eq_nil_of_le hlen.ge])⟩

/-- Settles O8: the conditions of R126 select the branches of the classification. -/
theorem framesAreClassifiedInOrder : Obligations.FramesAreClassifiedInOrder := by
  intro f
  unfold decodeFrame
  refine ⟨fun h0 => ?_, fun h0 h2 => ?_, fun h0 h2 => ?_, fun h0 h2 h2' => ?_, fun h0 h0' => ?_⟩
  · rw [if_pos h0]
  · rw [h0, h2]; rfl
  · rw [h0, h2]; rfl
  · rw [h0, if_neg (by decide), if_pos rfl, if_neg h2, if_neg h2']
  · rw [if_neg h0', if_neg h0]

/-- Settles O11: seven fixed requests, each read by its format. -/
theorem specWordsDecode : Obligations.SpecWordsDecode := by
  unfold Obligations.SpecWordsDecode
  decide

/-- Settles O41: by the record's action and its Tag's kind. -/
theorem recordLayout : Obligations.RecordLayout := by
  intro pad dev u0 u1 u2 u3 u4 u5 u6 a id
  cases a <;> simp [recordBytes, Action.code, resolvedByte, TagKind.code, tagId, le32Bytes]
end

section
/-! Sends that the transport answers Ok (40_codec.md R148, R150), with the whole state they leave, and the wire commands that run
them (30_encoding.md R100, R101). -/

namespace Sys2Proof.Machine

open Sys2Proof

/-- A catalog command of a present row after INIT, answered Ok, puts its row's frame on the wire with the counter (R148). -/
theorem hostCommand_sent {s : State} {k : Nat} {pl : List Byte} (hi : s.initDone = true) (ha : s.nextTxAnswer = .ok)
    (hk : k ≤ 0x0D) (hk9 : k ≠ 0x09) (hrow : (catalogRow s.cfg k).present = true) (hpl : pl.length ≤ 27) :
    s.hostCommand k pl =
      let psm := payloadMismatch (catalogRow s.cfg k).len pl
      { s.transmit (assemble 0x55 (catalogRow s.cfg k).opc (catalogRow s.cfg k).len s.ctr pl) with
        ctr := s.ctr + 1
        status := if psm then s.status ||| 0x0002#16 else s.status
        responses := s.responses ++ [[0x00, if psm then 0x01 else 0x00, s.ctr]] } := by
  have hchecks : s.hostCommand k pl = s.hostSend (catalogRow s.cfg k).opc (catalogRow s.cfg k).len pl := by
    have hkind : ¬(0x0D < k ∨ k = 0x09 ∨ (catalogRow s.cfg k).present = false) := by simp [hrow, hk9, hk]
    rw [State.hostCommand, if_neg hkind, if_neg (by simp [hi])]
  rcases send_cases s (catalogRow s.cfg k).opc (catalogRow s.cfg k).len pl with ⟨hlong, -⟩ | ⟨-, herr, -⟩ | ⟨-, -, hsent⟩
  · omega
  · simp [ha] at herr
  · rw [hchecks, State.hostSend, hsent]
    cases payloadMismatch (catalogRow s.cfg k).len pl <;> rfl

/-- The INIT send answered Ok, its payload of the declared length (R150). -/
theorem hostInit_sent {s : State} (hi : s.initDone = false) (ha : s.nextTxAnswer = .ok)
    (hpl : s.cfg.initPayload.length ≤ 27) (hm : s.cfg.initPayload.length + 2 = s.cfg.initLen.toNat) :
    s.hostInit = { s.transmit (initFrame s.cfg) with initDone := true, responses := s.responses ++ [[0x00, 0x00]] } := by
  have hpsm := (payloadMismatch_eq_false s.cfg.initLen s.cfg.initPayload).2 hm
  rcases hostInit_cases s with ⟨hi', -⟩ | ⟨-, hlong, -⟩ | ⟨-, -, herr, -⟩ | ⟨-, -, -, hsent⟩
  · simp [hi] at hi'
  · omega
  · simp [ha] at herr
  · rw [hsent, hpsm]
    rfl

/-- SWITCH_PAD's frame byte by byte (R101, R141). -/
theorem assemble_switchPad (c pad r g b : Byte) : assemble 0x55 0xC0 0x06 c [pad, r, g, b] =
    [0x55, 0x06, 0xC0, c, pad, r, g, b, 0x55 + 0x06 + 0xC0 + c + pad + r + g + b] ++ zeros 23 := by
  have hsum : checksum (frameHead 0x55 0xC0 0x06 c [pad, r, g, b]) (4 + [pad, r, g, b].length) =
      0x55 + 0x06 + 0xC0 + c + pad + r + g + b := by
    simp [checksum, frameHead, BitVec.ofNat_add, ← BitVec.add_assoc]
  rw [assemble_eq, hsum]
  rfl

end Sys2Proof.Machine

open Sys2Proof Sys2Proof.Machine

/-- Settles O25: each wire command runs the catalog command of its row, none of them INIT's. -/
theorem wireCommandsSendTheirRow : Obligations.WireCommandsSendTheirRow := by
  intro s hi ha
  have sent (k : Nat) (pl : List Byte) (hk : k ≤ 0x0D) (hk9 : k ≠ 0x09) (hrow : (catalogRow s.cfg k).present = true)
      (hpl : pl.length ≤ 27) :=
    congrArg (Host.Outcome.next (φ := Fault) (ρ := Refusal)) (hostCommand_sent hi ha hk hk9 hrow hpl)
  refine ⟨fun pad r g b => sent 0x00 _ (by decide) (by decide), fun pl => ⟨?_, ?_, ?_, ?_, ?_, ?_, ?_, ?_, ?_, ?_, ?_, ?_⟩⟩
  all_goals exact sent _ _ (by decide) (by decide)

/-- Settles O26: SWITCH_PAD's row is fixed and its four payload bytes match it, and INIT's frame is the one of R150. -/
theorem wireSwitchPadAndInitFrames : Obligations.WireSwitchPadAndInitFrames := by
  refine ⟨fun pad r g b s hi ha => ?_, fun s hi ha hpl hm => congrArg Host.Outcome.next (hostInit_sent hi ha hpl hm)⟩
  rw [← assemble_switchPad]
  exact congrArg Host.Outcome.next (hostCommand_sent (k := 0x00) (pl := [pad, r, g, b]) hi ha (by decide) (by decide) rfl
    (Nat.le_add_right 4 23))
end

section
/-! Frames (40_codec.md R140, R141, R143, R146, R151): the checksum as a sum of Bytes, every byte of what ASSEMBLE builds, and
when VERIFY accepts. -/

namespace Sys2Proof.Machine

open Sys2Proof

-- CHECKSUM

/-- CHECKSUM in the words of R140. -/
theorem checksum_eq_ofNat_mod (b : List Byte) (p : Nat) :
    checksum b p = BitVec.ofNat 8 (((b.take p).map BitVec.toNat).sum % 256) :=
  BitVec.eq_of_toNat_eq (by simp [checksum])

/-- A Byte's addition is the sum modulo 256 already (R140). -/
theorem checksum_eq_sum (b : List Byte) (p : Nat) : checksum b p = (b.take p).sum := by
  rw [checksum]
  induction b.take p with
  | nil => rfl
  | cons x xs ih => rw [List.map_cons, List.sum_cons, BitVec.ofNat_add, ih, List.sum_cons, BitVec.ofNat_toNat, BitVec.setWidth_eq]

/-- Writing a covered byte moves the checksum by the difference. -/
theorem checksum_set {b : List Byte} {i p : Nat} (hi : i < b.length) (hp : i < p) (x : Byte) :
    checksum (b.set i x) p = checksum b p + (-b[i] + x) := by
  have hcovered : i < (b.take p).length := by simp [hi, hp]
  rw [checksum_eq_sum, List.take_set, List.sum_set', dif_pos hcovered, List.getElem_take, checksum_eq_sum]

-- ASSEMBLE

section

variable (pfx opc len c : Byte) (pl : List Byte)

theorem assemble_getD_payload {j : Nat} (hj : j < pl.length) : (assemble pfx opc len c pl).getD (4 + j) 0 = pl.getD j 0 := by
  rw [Nat.add_comm 4 j, assemble_eq]
  exact List.getD_append _ _ _ _ hj

/-- The checksum byte follows the payload and covers all bytes before it. -/
theorem assemble_getD_checksum : (assemble pfx opc len c pl).getD (4 + pl.length) 0 =
    checksum (assemble pfx opc len c pl) (4 + pl.length) := by
  have hlen : (frameHead pfx opc len c pl).length = 4 + pl.length := frameHead_length ..
  rw [assemble_eq_head_append, List.getD_append_right _ _ _ _ hlen.le, checksum_append _ _ _ hlen.ge, hlen, Nat.sub_self]
  rfl

theorem assemble_getD_padding {j : Nat} (hj : 5 + pl.length ≤ j) : (assemble pfx opc len c pl).getD j 0 = 0 := by
  obtain ⟨i, rfl⟩ := Nat.exists_eq_add_of_le hj
  rw [assemble_eq_head_append, List.getD_append_right _ _ _ _ (by simp; omega), frameHead_length,
    show 5 + pl.length + i - (4 + pl.length) = i + 1 by omega]
  exact zeros_getD ..

end

-- VERIFY

theorem frame_getElem (f : Frame) (i : Nat) (hi : i < 32) : f[i] = f.toList.getD i 0 := by simp [hi]

theorem verify_of_inside {f : Frame} (h : f[1].toNat + 2 ≤ 31) : verify f =
    (f.toList.getD (f[1].toNat + 2) 0 == checksum f.toList (f[1].toNat + 2), checksum f.toList (f[1].toNat + 2)) :=
  if_neg (by omega)

theorem verify_of_outside {f : Frame} (h : 31 < f[1].toNat + 2) : verify f = (false, 0) := if_pos h

/-- VERIFY accepts where the declared length puts the checksum within the frame and the byte there is the sum (R146). -/
theorem verify_fst_iff (f : Frame) : (verify f).1 = true ↔
    f[1].toNat + 2 ≤ 31 ∧ f.toList.getD (f[1].toNat + 2) 0 = checksum f.toList (f[1].toNat + 2) := by
  by_cases h : f[1].toNat + 2 ≤ 31
  · simp [verify_of_inside h, h]
  · simp [verify_of_outside (not_le.1 h), h]

end Sys2Proof.Machine

open Sys2Proof Sys2Proof.Machine

/-- Settles O17: the bytes of ASSEMBLE, header, payload, checksum and padding. -/
theorem builtFramesHaveTheLayout : Obligations.BuiltFramesHaveTheLayout := by
  intro pfx opc len c pl
  refine ⟨assemble_length .., ?_, ?_, ?_, ?_, fun j hj => assemble_getD_payload _ _ _ _ _ hj, ?_,
    fun j hj => assemble_getD_padding _ _ _ _ _ hj, ?_⟩
  · rw [assemble_eq]; rfl
  · rw [assemble_eq]; rfl
  · rw [assemble_eq]; rfl
  · rw [assemble_eq]; rfl
  · rw [assemble_getD_checksum, checksum_eq_ofNat_mod]
  · rw [validFrame_assemble, decide_eq_true_eq]

/-- Settles O18: the declared length puts VERIFY's position on the checksum byte. -/
theorem matchingFramesVerify : Obligations.MatchingFramesVerify := by
  intro f opc len c pl hpl hlen hf
  have hdeclared : f[1] = len := by rw [frame_getElem f 1 (by decide), hf, assemble_eq]; rfl
  have hpos : f[1].toNat + 2 = 4 + pl.length := by rw [hdeclared]; omega
  have hsum : f.toList.getD (4 + pl.length) 0 = checksum f.toList (4 + pl.length) := by rw [hf, assemble_getD_checksum]
  rw [verify_of_inside (by omega), hpos, hsum, beq_self_eq_true]

/-- Settles O19: the stored checksum byte is the same in both frames, so their sums would be equal, and with them the byte. -/
theorem oneChangedByteFailsVerify : Obligations.OneChangedByteFailsVerify := by
  intro f i x hv hne hcov hx
  obtain ⟨hin, hsum⟩ := (verify_fst_iff f).1 hv
  have hlen : (f.set i x)[1] = f[1] := Vector.getElem_set_ne _ _ hne
  have hstored : (f.set i x).toList.getD (f[1].toNat + 2) 0 = f.toList.getD (f[1].toNat + 2) 0 := by
    rw [← frame_getElem _ _ (by omega), ← frame_getElem _ _ (by omega), Vector.getElem_set_ne _ _ hcov.ne]
  refine Bool.eq_false_iff.2 fun hv' => hx ?_
  obtain ⟨-, hsum'⟩ := (verify_fst_iff _).1 hv'
  rw [hlen, hstored, hsum, Vector.toList_set, checksum_set (by simp) hcov, left_eq_add, neg_add_eq_zero] at hsum'
  exact hsum'.symm
end

section
/-! The codec's host operations (40_codec.md R144 to R150): refusal of a request by its length (43_control.md R265), the ends of SEND
and of the operations that use it, and the refusals of a wire command. -/

namespace Sys2Proof.Machine

open Sys2Proof

/-- Dispatch refuses a request whose length is not the one its OP gives (R259, R265). -/
theorem refusesLength_of_reqLen {op : Byte} {len : List Byte → Nat} (h : ∀ rest, reqLen (op :: rest) = some (len (op :: rest))) :
    RefusesLength op len := fun s t rest hnext hne => by
  have hd : decodeRequest (op :: rest) = .rejected .badLength := by
    rw [decodeRequest, if_neg (by simp), h]
    exact if_neg hne
  simp only [step, hnext, hd]
  rfl

-- The ends of SEND, of a host send and of TX_INIT, each with the whole state it leaves

section

variable {s : State} {opc len : Byte} {pl : List Byte}

theorem send_of_long (h : 28 ≤ pl.length) : s.send opc len pl =
    let psm := payloadMismatch len pl
    ⟨s.ctr, .lenErr, psm, { s with
      ctr := s.ctr + 1, status := (if psm then s.status ||| 0x0002#16 else s.status) ||| 0x0004#16 }⟩ := by
  rcases send_cases s opc len pl with ⟨-, hend⟩ | ⟨hshort, -⟩ | ⟨hshort, -⟩
  · rw [hend]
    cases payloadMismatch len pl <;> rfl
  · omega
  · omega

theorem send_of_err (h : pl.length ≤ 27) (ha : s.nextTxAnswer = .err) : s.send opc len pl =
    let psm := payloadMismatch len pl
    ⟨s.ctr, .txFail, psm, { s.transmit (assemble 0x55 opc len s.ctr pl) with
      ctr := s.ctr + 1, status := (if psm then s.status ||| 0x0002#16 else s.status) ||| 0x0008#16 }⟩ := by
  rcases send_cases s opc len pl with ⟨hlong, -⟩ | ⟨-, -, hend⟩ | ⟨-, hok, -⟩
  · omega
  · rw [hend]
    cases payloadMismatch len pl <;> rfl
  · simp [ha] at hok

theorem send_of_ok (h : pl.length ≤ 27) (ha : s.nextTxAnswer = .ok) : s.send opc len pl =
    let psm := payloadMismatch len pl
    ⟨s.ctr, .sent, psm, { s.transmit (assemble 0x55 opc len s.ctr pl) with
      ctr := s.ctr + 1, status := if psm then s.status ||| 0x0002#16 else s.status }⟩ := by
  rcases send_cases s opc len pl with ⟨hlong, -⟩ | ⟨-, herr, -⟩ | ⟨-, -, hend⟩
  · omega
  · simp [ha] at herr
  · rw [hend]
    cases payloadMismatch len pl <;> rfl

theorem hostSend_of_long (h : 28 ≤ pl.length) : s.hostSend opc len pl =
    let psm := payloadMismatch len pl
    { s with
      ctr := s.ctr + 1
      status := (if psm then s.status ||| 0x0002#16 else s.status) ||| 0x0004#16
      responses := s.responses ++ [[0x82, if psm then 0x01 else 0x00, s.ctr]] } := by
  rw [State.hostSend, send_of_long h]
  rfl

theorem hostSend_of_err (h : pl.length ≤ 27) (ha : s.nextTxAnswer = .err) : s.hostSend opc len pl =
    let psm := payloadMismatch len pl
    { s.transmit (assemble 0x55 opc len s.ctr pl) with
      ctr := s.ctr + 1
      status := (if psm then s.status ||| 0x0002#16 else s.status) ||| 0x0008#16
      responses := s.responses ++ [[0x83, if psm then 0x01 else 0x00, s.ctr]] } := by
  rw [State.hostSend, send_of_err h ha]
  rfl

theorem hostSend_of_ok (h : pl.length ≤ 27) (ha : s.nextTxAnswer = .ok) : s.hostSend opc len pl =
    let psm := payloadMismatch len pl
    { s.transmit (assemble 0x55 opc len s.ctr pl) with
      ctr := s.ctr + 1
      status := if psm then s.status ||| 0x0002#16 else s.status
      responses := s.responses ++ [[0x00, if psm then 0x01 else 0x00, s.ctr]] } := by
  rw [State.hostSend, send_of_ok h ha]
  rfl

theorem hostInit_of_long (hi : s.initDone = false) (h : 28 ≤ s.cfg.initPayload.length) : s.hostInit =
    let psm := payloadMismatch s.cfg.initLen s.cfg.initPayload
    { s with
      status := (if psm then s.status ||| 0x0002#16 else s.status) ||| 0x0004#16
      responses := s.responses ++ [[0x82, if psm then 0x01 else 0x00]] } := by
  rcases hostInit_cases s with ⟨hi', -⟩ | ⟨-, -, hend⟩ | ⟨-, hshort, -⟩ | ⟨-, hshort, -⟩
  · simp [hi] at hi'
  · rw [hend]
    cases payloadMismatch s.cfg.initLen s.cfg.initPayload <;> rfl
  · omega
  · omega

theorem hostInit_of_err (hi : s.initDone = false) (h : s.cfg.initPayload.length ≤ 27) (ha : s.nextTxAnswer = .err) :
    s.hostInit =
      let psm := payloadMismatch s.cfg.initLen s.cfg.initPayload
      { s.transmit (initFrame s.cfg) with
        status := (if psm then s.status ||| 0x0002#16 else s.status) ||| 0x0008#16
        responses := s.responses ++ [[0x83, if psm then 0x01 else 0x00]] } := by
  rcases hostInit_cases s with ⟨hi', -⟩ | ⟨-, hlong, -⟩ | ⟨-, -, -, hend⟩ | ⟨-, -, hok, -⟩
  · simp [hi] at hi'
  · omega
  · rw [hend]
    cases payloadMismatch s.cfg.initLen s.cfg.initPayload <;> rfl
  · simp [ha] at hok

theorem hostInit_of_ok (hi : s.initDone = false) (h : s.cfg.initPayload.length ≤ 27) (ha : s.nextTxAnswer = .ok) :
    s.hostInit =
      let psm := payloadMismatch s.cfg.initLen s.cfg.initPayload
      { s.transmit (initFrame s.cfg) with
        initDone := true
        status := if psm then s.status ||| 0x0002#16 else s.status
        responses := s.responses ++ [[0x00, if psm then 0x01 else 0x00]] } := by
  rcases hostInit_cases s with ⟨hi', -⟩ | ⟨-, hlong, -⟩ | ⟨-, -, herr, -⟩ | ⟨-, -, -, hend⟩
  · simp [hi] at hi'
  · omega
  · simp [ha] at herr
  · rw [hend]
    cases payloadMismatch s.cfg.initLen s.cfg.initPayload <;> rfl

end

-- The checks of a catalog command, in the order of R285

section

variable {s : State} {k : Nat} {pl : List Byte}

theorem hostCommand_badKind (h : 0x0D < k ∨ k = 0x09 ∨ (catalogRow s.cfg k).present = false) :
    s.hostCommand k pl = s.respond .badKind 0x00 [0x00] := if_pos h

theorem hostCommand_notInit (h : ¬(0x0D < k ∨ k = 0x09 ∨ (catalogRow s.cfg k).present = false)) (hi : s.initDone = false) :
    s.hostCommand k pl = s.respond .notInit 0x00 [0x00] := by
  rw [State.hostCommand, if_neg h, if_pos hi]

theorem hostCommand_eq_hostSend (h : ¬(0x0D < k ∨ k = 0x09 ∨ (catalogRow s.cfg k).present = false)) (hi : s.initDone = true) :
    s.hostCommand k pl = s.hostSend (catalogRow s.cfg k).opc (catalogRow s.cfg k).len pl := by
  rw [State.hostCommand, if_neg h, if_neg (by simp [hi])]

/-- An instruction that runs a catalog command, not INIT's, is refused where the row is absent, and before INIT (R148). -/
theorem refuses_of_exec {i : Instr} (he : exec i s = .next (s.hostCommand k pl)) (hk : k ≤ 0x0D) (hk9 : k ≠ 0x09) :
    ((catalogRow s.cfg k).present = false →
      exec i s = .next { s with responses := s.responses ++ [[0x87, 0x00, 0x00]] }) ∧
    ((catalogRow s.cfg k).present = true → s.initDone = false →
      exec i s = .next { s with responses := s.responses ++ [[0x84, 0x00, 0x00]] }) := by
  refine ⟨fun habsent => ?_, fun hrow hi => ?_⟩
  · rw [he, hostCommand_badKind (.inr (.inr habsent))]
    rfl
  · rw [he, hostCommand_notInit (by simp [hrow, hk9, hk]) hi]
    rfl

end

end Sys2Proof.Machine

open Sys2Proof Sys2Proof.Machine

/-- Settles O20: R140's sum, VERIFY's two cases by the declared length, and what ASSEMBLE builds with its validation. -/
theorem codecOperationsAnswer : Obligations.CodecOperationsAnswer := by
  refine ⟨fun p f s => ?_, fun f s => ?_, fun pfx opc len c pl s => ?_, refusesLength_of_reqLen fun _ => rfl,
    refusesLength_of_reqLen fun _ => rfl, refusesLength_of_reqLen fun _ => rfl⟩
  · rw [← checksum_eq_ofNat_mod]
    by_cases hp : 32 < p.toNat
    · simp only [exec, execFrmChecksum, if_pos hp]; rfl
    · simp only [exec, execFrmChecksum, if_neg hp]; rfl
  · by_cases hpos : 31 < f[1].toNat + 2
    · simp only [exec, execFrmVerify, verify_of_outside hpos, if_pos hpos]; rfl
    · simp only [exec, execFrmVerify, verify_of_inside (not_lt.1 hpos), if_neg hpos, boolByte, beq_iff_eq]; rfl
  · have hwarn : warnByte (payloadMismatch len pl) = if pl.length + 2 = len.toNat then 0x00 else 0x01 := by
      simp [warnByte, payloadMismatch]
    simp only [exec, execFrmAssemble, validFrame_assemble, assemble_length, hwarn, decide_eq_true_eq]
    split <;> rfl

/-- Settles O21: SEND's three ends. -/
theorem sendConsumesTheCounter : Obligations.SendConsumesTheCounter := fun _ _ _ _ =>
  ⟨send_of_long, send_of_err, send_of_ok⟩

/-- Settles O22: the checks of a catalog command, and past them the three ends of a host send. -/
theorem txCommandByCases : Obligations.TxCommandByCases := by
  refine ⟨fun k pl s => ?_, refusesLength_of_reqLen fun _ => rfl⟩
  rw [← BitVec.toNat_inj (x := k)]
  have sends (hrow : ¬(0x0D < k.toNat ∨ k.toNat = 0x09 ∨ (catalogRow s.cfg k.toNat).present = false)) (hi : s.initDone = true) :=
    congrArg (Host.Outcome.next (φ := Fault) (ρ := Refusal)) (hostCommand_eq_hostSend (pl := pl) hrow hi)
  exact ⟨fun hbad => congrArg _ (hostCommand_badKind hbad), fun hrow hi => congrArg _ (hostCommand_notInit hrow hi),
    fun hrow hi hl => (sends hrow hi).trans (congrArg _ (hostSend_of_long hl)),
    fun hrow hi hl ha => (sends hrow hi).trans (congrArg _ (hostSend_of_err hl ha)),
    fun hrow hi hl ha => (sends hrow hi).trans (congrArg _ (hostSend_of_ok hl ha))⟩

/-- Settles O23: past the check of INIT_DONE, the three ends of a host send. -/
theorem txRawByCases : Obligations.TxRawByCases := by
  refine ⟨fun opc len pl s => ?_, refusesLength_of_reqLen fun _ => rfl⟩
  have sends (hi : s.initDone = true) : exec (.txRaw opc len pl) s = .next (s.hostSend opc len pl) :=
    congrArg _ (if_neg (by simp [hi]))
  exact ⟨fun hi => congrArg _ (if_pos hi),
    fun hi hl => (sends hi).trans (congrArg _ (hostSend_of_long hl)),
    fun hi hl ha => (sends hi).trans (congrArg _ (hostSend_of_err hl ha)),
    fun hi hl ha => (sends hi).trans (congrArg _ (hostSend_of_ok hl ha))⟩

/-- Settles O24: TX_INIT's refusal after INIT, and its three ends before. -/
theorem txInitByCases : Obligations.TxInitByCases := by
  refine ⟨fun s => ?_, refusesLength_of_reqLen fun _ => rfl⟩
  exact ⟨fun hi => congrArg _ (if_pos hi), fun hi hl => congrArg _ (hostInit_of_long hi hl),
    fun hi hl ha => congrArg _ (hostInit_of_err hi hl ha), fun hi hl ha => congrArg _ (hostInit_of_ok hi hl ha)⟩

/-- Settles O27: the two refusals of a catalog command, for each row but INIT's, and TX_INIT's refusal after INIT. -/
theorem wireCommandsRefusedSendNothing : Obligations.WireCommandsRefusedSendNothing := by
  intro s
  refine ⟨fun pad r g b => refuses_of_exec rfl (by decide) (by decide),
    fun pl => ⟨?_, ?_, ?_, ?_, ?_, ?_, ?_, ?_, ?_, ?_, ?_, ?_⟩, fun hi => congrArg _ (if_pos hi)⟩
  all_goals exact refuses_of_exec (pl := pl) rfl (by decide) (by decide)
end

section
/-! The Tag Cipher (41_cipher.md R180 to R192): its 32 cycles as a fold over the cycle number, the two directions as inverses of
each other, and the host operations' Word and block forms. -/

namespace Sys2Proof.Machine

open Sys2Proof

-- The constants: KEY's subkeys, and SUM_END as the sum that ENCIPHER ends with

theorem subkey_0 : subkey 0 = 0xB0F6FE55#32 := by decide

theorem subkey_1 : subkey 1 = 0x410BBF62#32 := by decide

theorem subkey_2 : subkey 2 = 0xB47CB3C9#32 := by decide

theorem subkey_3 : subkey 3 = 0x7B293E97#32 := by decide

theorem teaSumEnd_eq_mul : teaSumEnd = BitVec.ofNat 32 32 * teaDelta := by decide

-- The cycles in order of their number

/-- The sum of the next cycle of ENCIPHER after `n` of them (R183). -/
theorem encipher_sum (n : Nat) (v : Word × Word) :
    (encipherStep^[n] (0, v)).1 + teaDelta = BitVec.ofNat 32 ((n + 1) * 0x9E3779B9) := by
  rw [encipherStep_sum, BitVec.ofNat_mul, BitVec.ofNat_add, BitVec.add_mul, BitVec.one_mul]
  exact congrArg (· + teaDelta) (BitVec.zero_add _)

/-- The sum of the next cycle of DECIPHER after `n` of the 32 (R184). -/
theorem decipher_sum {n : Nat} (hn : n ≤ 32) (v : Word × Word) :
    (decipherStep^[n] (teaSumEnd, v)).1 = BitVec.ofNat 32 ((32 - n) * 0x9E3779B9) := by
  have hsplit : BitVec.ofNat 32 32 = BitVec.ofNat 32 (32 - n) + BitVec.ofNat 32 n := by
    rw [← BitVec.ofNat_add, Nat.sub_add_cancel hn]
  rw [decipherStep_sum, teaSumEnd_eq_mul, hsplit, BitVec.add_mul, BitVec.add_sub_cancel, BitVec.ofNat_mul]
  rfl

/-- Cycle `i` of ENCIPHER runs with the sum (i + 1) * DELTA. -/
theorem encipherStep_iterate_eq_foldl (n : Nat) (v : Word × Word) : (encipherStep^[n] (0, v)).2 =
    (List.range n).foldl (fun v i => encipherCycle (BitVec.ofNat 32 ((i + 1) * 0x9E3779B9)) v) v := by
  induction n with
  | zero => rfl
  | succ n ih => rw [Function.iterate_succ_apply', encipherStep, encipher_sum, ih, List.range_succ, List.foldl_concat]

/-- Cycle `i` of DECIPHER's 32 runs with the sum (32 - i) * DELTA. -/
theorem decipherStep_iterate_eq_foldl {n : Nat} (hn : n ≤ 32) (v : Word × Word) : (decipherStep^[n] (teaSumEnd, v)).2 =
    (List.range n).foldl (fun v i => decipherCycle (BitVec.ofNat 32 ((32 - i) * 0x9E3779B9)) v) v := by
  induction n with
  | zero => rfl
  | succ n ih =>
    rw [Function.iterate_succ_apply', decipherStep, decipher_sum (by omega), ih (by omega), List.range_succ, List.foldl_concat]

-- Both directions: the state of the loop where one ends is where the other begins

/-- ENCIPHER's loop ends with the sum SUM_END (R181, R183). -/
theorem encipherStep_iterate_32 (v : Word × Word) : encipherStep^[32] (0, v) = (teaSumEnd, encipher v) :=
  Prod.ext (by rw [encipherStep_sum, teaSumEnd_eq_mul]; exact BitVec.zero_add _) rfl

/-- DECIPHER's loop ends with the sum 0 (R184). -/
theorem decipherStep_iterate_32 (v : Word × Word) : decipherStep^[32] (teaSumEnd, v) = (0, decipher v) :=
  Prod.ext (by rw [decipherStep_sum, teaSumEnd_eq_mul, BitVec.sub_self]; rfl) rfl

@[simp] theorem decipher_encipher (v : Word × Word) : decipher (encipher v) = v := by
  rw [decipher, ← encipherStep_iterate_32, Function.LeftInverse.iterate decipherStep_encipherStep 32 (0, v)]

@[simp] theorem encipher_decipher (v : Word × Word) : encipher (decipher v) = v := by
  rw [encipher, ← decipherStep_iterate_32, Function.LeftInverse.iterate encipherStep_decipherStep 32 (teaSumEnd, v)]

theorem decodeBlock_encodeBlock (b : Block) : decodeBlock (encodeBlock b) = b := by
  rw [decodeBlock, encodeBlock, blockWords_wordsBlock, decipher_encipher, wordsBlock_blockWords]

theorem encodeBlock_decodeBlock (b : Block) : encodeBlock (decodeBlock b) = b := by
  rw [encodeBlock, decodeBlock, blockWords_wordsBlock, encipher_decipher, wordsBlock_blockWords]

-- The host operations on the 8 bytes of a block

section

variable (b : Block) (op : Byte)

/-- The two Words of a request with 8 operand bytes (R109, R110) are those of the block (R73). -/
theorem wordAt_cons_toList : (wordAt (op :: b.toList) 1, wordAt (op :: b.toList) 5) = blockWords b := by
  simp [wordAt, blockWords]

variable (s : State)

/-- The Word form of the encipherment answers the block form's bytes. -/
theorem execTeaEncipher_blockWords : execTeaEncipher (blockWords b).1 (blockWords b).2 s = execTeaEncode b s := by
  rw [execTeaEncode, encodeBlock, wordsBlock_toList]
  rfl

/-- The Word form of the decipherment answers the block form's bytes. -/
theorem execTeaDecipher_blockWords : execTeaDecipher (blockWords b).1 (blockWords b).2 s = execTeaDecode b s := by
  rw [execTeaDecode, decodeBlock, wordsBlock_toList]
  rfl

end

end Sys2Proof.Machine

open Sys2Proof Sys2Proof.Machine

/-- Settles O12: the loops as folds over the cycle number, with the values of the four subkeys. -/
theorem cipherRunsThirtyTwoCycles : Obligations.CipherRunsThirtyTwoCycles := by
  intro v
  rw [encipher, decipher, encipherStep_iterate_eq_foldl, decipherStep_iterate_eq_foldl le_rfl]
  simp only [encipherCycle, decipherCycle, teaMix, subkey_0, subkey_1, subkey_2, subkey_3, and_self]

/-- Settles O13: each direction's loop starts where the other ends and undoes it cycle by cycle. -/
theorem encipherAndDecipherAreInverse : Obligations.EncipherAndDecipherAreInverse := fun v =>
  ⟨decipher_encipher v, encipher_decipher v⟩

/-- Settles O14: packing a Word pair and taking a block apart are inverse, and so are the Word transforms between them. -/
theorem blockTransformsAreInverse : Obligations.BlockTransformsAreInverse := fun b =>
  ⟨wordsBlock_toList _, wordsBlock_toList _, decodeBlock_encodeBlock b, encodeBlock_decodeBlock b⟩

/-- Settles O15: each operation is its definition's one response, and every request with its OP has length 9. -/
theorem cipherOperationsAnswer : Obligations.CipherOperationsAnswer := by
  refine ⟨fun v0 v1 s => ⟨rfl, rfl⟩, fun b s => ⟨rfl, rfl⟩, ?_, ?_, ?_, ?_⟩
  all_goals exact refusesLength_of_reqLen fun _ => rfl

/-- Settles O16: the Word operands that the decoder reads are the block's Word pair. -/
theorem wordAndBlockFormsAgree : Obligations.WordAndBlockFormsAgree := by
  intro b s
  have reads (op : Byte) (h : reqLen (op :: b.toList) = some 9) : decodeRequest (op :: b.toList) = reqInstr (op :: b.toList) :=
    decodeRequest_eq_reqInstr (by simpa using h)
  have words (op : Byte) := Prod.ext_iff.1 (wordAt_cons_toList b op)
  have block (op : Byte) : bytesAt 8 (op :: b.toList) 1 = b := bytesAt_append_toList [op] b
  exact ⟨(blockWords b).1, (blockWords b).2,
    (reads 0x01 rfl).trans (congrArg₂ (Decoded.ok <| .teaEncipher · ·) (words 0x01).1 (words 0x01).2),
    (reads 0x02 rfl).trans (congrArg₂ (Decoded.ok <| .teaDecipher · ·) (words 0x02).1 (words 0x02).2),
    (reads 0x03 rfl).trans (congrArg (Decoded.ok <| .teaEncode ·) (block 0x03)),
    (reads 0x04 rfl).trans (congrArg (Decoded.ok <| .teaDecode ·) (block 0x04)),
    execTeaEncipher_blockWords b s, execTeaDecipher_blockWords b s⟩
end

section
/-! The Event Correlator (42_correlator.md R210 to R231): the states its parts leave, written out; what an inbound frame does past
the pre-checks; and what one RxStep can do to an entry of PT and to TC. -/

namespace Sys2Proof.Machine

open Sys2Proof

-- The state each part leaves, with every field

section

variable {s : State}

/-- A drop, as the STATUS word it leaves (R211). -/
theorem dropFrame_eq_withStatus (s : State) (r : DropReason) : s.dropFrame r =
    { s with status := (s.status &&& 0x0FFF#16) ||| (r.code.setWidth 16 <<< 12 ||| 0x0080#16) } := by
  rw [State.dropFrame, dropped_status]

theorem ite_payloadMismatch {α : Type} (len : Byte) (pl : List Byte) (x y : α) :
    (if payloadMismatch len pl then x else y) = if pl.length + 2 = len.toNat then y else x := by
  simp [payloadMismatch]

/-- A follow-up whose frame is sent Ok: the entry stands under the counter used up, PTCOLL says whether it replaced a valid one
(R224). -/
theorem followup_of_ok {k : Nat} {pl : List Byte} {e : PtEntry} (h : pl.length ≤ 27) (ha : s.nextTxAnswer = .ok) :
    s.followup k pl e =
      let row := catalogRow s.cfg k
      let st := if pl.length + 2 = row.len.toNat then s.status else s.status ||| 0x0002#16
      { s.transmit (assemble 0x55 row.opc row.len s.ctr pl) with
        ctr := s.ctr + 1
        status := if (s.ptAt s.ctr).valid then st ||| 0x0020#16 else st
        pt := s.pt.set s.ctr.toNat { e with valid := true } s.ctr.isLt } := by
  have hold : ((s.send (catalogRow s.cfg k).opc (catalogRow s.cfg k).len pl).next.ptAt s.ctr).valid = (s.ptAt s.ctr).valid := by
    simp [ptAt_eq]
  rw [State.followup]
  dsimp only
  rw [State.send_c, hold, send_of_ok h ha]
  simp only [ite_payloadMismatch]
  cases (s.ptAt s.ctr).valid <;> rfl

/-- A follow-up whose frame is not sent: no entry, FUTXERR and TXERR (R224). -/
theorem followup_of_err {k : Nat} {pl : List Byte} {e : PtEntry} (h : pl.length ≤ 27) (ha : s.nextTxAnswer = .err) :
    s.followup k pl e =
      let row := catalogRow s.cfg k
      let st := if pl.length + 2 = row.len.toNat then s.status else s.status ||| 0x0002#16
      { s.transmit (assemble 0x55 row.opc row.len s.ctr pl) with ctr := s.ctr + 1, status := st ||| 0x0018#16 } := by
  rw [State.followup, send_of_err h ha]
  dsimp only [State.setFlag, withFlag]
  rw [BitVec.or_assoc, ite_payloadMismatch]
  rfl

theorem readPayload_length_le (cfg : Cfg) (idx : Byte) : (readPayload cfg idx).length ≤ 27 := List.length_take_le ..

@[simp] theorem tcLookup_clearPt (c : Byte) (uid : Uid) : (s.clearPt c).tcLookup uid = s.tcLookup uid := rfl

/-- TCInsert neither reads nor writes PT (R225). -/
theorem tcInsert_clearPt (c : Byte) (uid : Uid) (tag : Tag) :
    (s.clearPt c).tcInsert uid tag = (s.tcInsert uid tag).clearPt c := by
  unfold State.tcInsert
  rw [tcLookup_clearPt, State.clearPt_cfg, State.clearPt_tc]
  split
  · rfl
  · split <;> rfl

end

-- One entry of PT after a clear and after a follow-up

theorem ptAt_clearPt_cases (s : State) (c d : Byte) :
    (s.clearPt c).ptAt d = s.ptAt d ∨ (d = c ∧ ((s.clearPt c).ptAt d).valid = false) := by
  by_cases h : d = c
  · exact .inr ⟨h, by rw [h, ptAt_clearPt_same]⟩
  · exact .inl (ptAt_clearPt_other s c d h)

theorem clearPt_valid_iff (s : State) (c d : Byte) :
    ((s.clearPt c).ptAt d).valid = true ↔ d ≠ c ∧ (s.ptAt d).valid = true := by
  by_cases h : d = c
  · simp [h]
  · simp [h, ptAt_clearPt_other s c d h]

/-- A follow-up writes only at the counter it uses up, and what it writes is valid (R224). -/
theorem State.followup_ptAt_cases (s : State) (k : Nat) (pl : List Byte) (e : PtEntry) (c : Byte) :
    (s.followup k pl e).ptAt c = s.ptAt c ∨ (c = s.ctr ∧ ((s.followup k pl e).ptAt c).valid = true) := by
  by_cases hc : c = s.ctr
  · rcases s.followup_ptAt_ctr k pl e with h | h
    · exact .inr ⟨hc, by rw [hc, h]⟩
    · exact .inl (by rw [hc, h])
  · exact .inl (s.followup_ptAt_other k pl e c hc)

-- The end of an identification

section

variable (s : State) (c : Byte) (e : PtEntry) (tag : Tag)

theorem State.resolve_ptAt_same : (s.resolve c e tag).ptAt c = { s.ptAt c with valid := false } := by
  simp [State.resolve, ptAt_eq]

theorem State.resolve_ptAt_other {d : Byte} (h : d ≠ c) : (s.resolve c e tag).ptAt d = s.ptAt d := by
  rw [← ptAt_clearPt_other s c d h, ptAt_eq, ptAt_eq, State.resolve, State.push_pt, State.tcInsert_pt]

theorem State.resolve_registers : (s.resolve c e tag).registers = s.registers := by simp [State.resolve]

theorem State.resolve_outside : (s.resolve c e tag).outside = s.outside := by simp [State.resolve]

/-- The whole effect of an identification's end (R220, R223, R225, R226). -/
theorem State.resolve_effect : let t := s.resolve c e tag
    t.ptAt c = { s.ptAt c with valid := false } ∧ (∀ d ≠ c, t.ptAt d = s.ptAt d) ∧
    t.evq = s.evq ++ [{ pad := e.pad, action := .added, tag := some tag, device := s.cfg.deviceIndex, uid := e.uid }] ∧
    t.tc = (s.tcInsert e.uid tag).tc ∧ t.status = (s.tcInsert e.uid tag).status ∧
    t.registers = s.registers ∧ t.outside = s.outside :=
  ⟨s.resolve_ptAt_same .., fun _ hd => s.resolve_ptAt_other _ _ _ hd, s.resolve_evq ..,
    by rw [State.resolve_tc, tcInsert_clearPt, State.clearPt_tc],
    by rw [State.resolve_status, tcInsert_clearPt, State.clearPt_status],
    s.resolve_registers .., s.resolve_outside ..⟩

end

-- EVT_POP by the first record of EVQ

theorem execEvtPop_of_empty {s : State} (h : s.evq = []) : execEvtPop s = .next (s.respond .empty 0x00 (zeros 16)) := by
  rw [execEvtPop, h]

theorem execEvtPop_of_cons {s : State} {r : TagEvent} {rest : List TagEvent} (h : s.evq = r :: rest) :
    execEvtPop s = .next (State.respond { s with evq := rest } .ok 0x00 (recordBytes r)) := by
  rw [execEvtPop, h]

-- The five classes of inbound frame

section

variable {f : Frame} {i : Instr}

/-- Every class runs a body of its own after the same pre-checks (R212). -/
theorem exec_eq_afterPrecheck (s : State)
    (h : i ∈ [Instr.rxEvent f, .rxReadReply f, .rxModelReply f, .rxBadMarker f, .rxBadPrefix f]) :
    ∃ body, exec i s = .next (s.afterPrecheck f body) := by
  simp only [List.mem_cons, List.not_mem_nil, or_false] at h
  rcases h with rfl | rfl | rfl | rfl | rfl <;> exact ⟨_, rfl⟩

/-- Of the classes of a frame, its event and its READ reply can send, and its replies carry this frame. -/
theorem class_facts (h : i ∈ [Instr.rxEvent f, .rxReadReply f, .rxModelReply f, .rxBadMarker f, .rxBadPrefix f]) :
    inbound i = true ∧ (sends i = true → i = .rxEvent f ∨ i = .rxReadReply f) ∧
    ∀ g, i = .rxReadReply g ∨ i = .rxModelReply g → g = f := by
  simp only [List.mem_cons, List.not_mem_nil, or_false] at h
  rcases h with rfl | rfl | rfl | rfl | rfl <;> simp [inbound, sends, eq_comm]

end

-- The drops of the pre-checks and of MATCH, and what an event does by its pad and action

section

variable {s : State} {f : Frame}

theorem afterPrecheck_of_notInit {body : State → State} (hi : s.initDone = false) :
    s.afterPrecheck f body = s.dropFrame .notInit := if_pos hi

theorem afterPrecheck_of_badChecksum {body : State → State} (hi : s.initDone = true) (hr : s.ctrl.getLsbD 0 = true)
    (hbad : (verify f).1 = false) : s.afterPrecheck f body = (s.setFlag .rxcksum).dropFrame .cksum := by
  rw [State.afterPrecheck, if_neg (by simp [hi]), if_pos (by simp [State.rxckEn, hr, hbad])]

theorem afterMatch_of_invalid {c : Byte} {want : Stage} {body : PtEntry → State → State} (h : (s.ptAt c).valid = false) :
    s.afterMatch c want body = s.dropFrame .noPending := if_pos h

theorem afterMatch_of_wrongStage {c : Byte} {want : Stage} {body : PtEntry → State → State} (h : (s.ptAt c).valid = true)
    (hstage : (s.ptAt c).stage ≠ want) : s.afterMatch c want body = s.dropFrame .stage := by
  rw [State.afterMatch, if_neg (by simp [h]), if_pos hstage]

/-- The pad of an event frame, tested against R97's four. -/
abbrev HasKnownPad (s : State) (f : Frame) : Prop :=
  f[s.cfg.evtPadOff] ∈ [s.cfg.padLeft, 0x01, s.cfg.padRight, s.cfg.padAll]

theorem HasKnownPad.not_unknown (hpad : HasKnownPad s f) : ¬knownPad s.cfg (eventPad s.cfg f) = false := by
  rw [Bool.not_eq_false]
  exact (knownPad_iff ..).2 hpad

theorem rxEvent_of_badPad (hpad : ¬HasKnownPad s f) : s.rxEvent f = s.dropFrame .badPad :=
  if_pos (Bool.eq_false_iff.2 fun h => hpad ((knownPad_iff ..).1 h))

theorem rxEvent_of_badAction (hpad : HasKnownPad s f) (hadded : f[5] ≠ 0x01) (hremoved : f[5] ≠ s.cfg.actRemoved) :
    s.rxEvent f = s.dropFrame .badAction :=
  (if_neg hpad.not_unknown).trans <| (if_neg hadded).trans <| if_neg hremoved

theorem rxEvent_of_added (hpad : HasKnownPad s f) (hact : f[5] = 0x01) : s.rxEvent f =
    s.eventAdded f[s.cfg.evtPadOff] f[4] #v[f[6], f[7], f[8], f[9], f[10], f[11], f[12]] := by
  rw [← eventUid_eq]
  exact (if_neg hpad.not_unknown).trans (if_pos hact)

theorem rxEvent_of_removed (hpad : HasKnownPad s f) (hne : f[5] ≠ 0x01) (hact : f[5] = s.cfg.actRemoved) : s.rxEvent f =
    s.eventRemoved f[s.cfg.evtPadOff] #v[f[6], f[7], f[8], f[9], f[10], f[11], f[12]] := by
  rw [← eventUid_eq]
  exact (if_neg hpad.not_unknown).trans <| (if_neg hne).trans <| if_pos hact

end

-- READ_REPLY by the class of its tag

section

variable {f : Frame} {e : PtEntry} {s : State}

theorem readReply_of_vehicle (h : classify s.cfg f = .vehicle) : State.readReply f e s =
    s.resolve f[3] e { kind := .vehicle, id := (vehicleId s.cfg f).setWidth 32 } := by
  rw [State.readReply, h]; rfl

theorem readReply_of_character (h : classify s.cfg f = .character) : State.readReply f e s =
    (s.clearPt f[3]).followup 0x08 (encodeBlock (lmPlain s.cfg e.idx)).toList
      { valid := true, stage := .awaitModel, pad := e.pad, idx := e.idx, uid := e.uid } := by
  rw [State.readReply, h]; rfl

theorem readReply_of_unknown (h : classify s.cfg f = .unknown) : State.readReply f e s = s.dropFrame .badDisc := by
  rw [State.readReply, h]

end

-- Past the pre-checks

section

variable {f : Frame} {s : State} (hi : s.initDone = true) (hv : s.ctrl.getLsbD 0 = true → (verify f).1 = true)

include hi hv

theorem exec_rxEvent_of_passes : exec (.rxEvent f) s = .next (s.rxEvent f) :=
  congrArg _ (afterPrecheck_passes s f _ hi hv)

theorem exec_rxBadPrefix_of_passes : exec (.rxBadPrefix f) s = .next (s.dropFrame .badPrefix) :=
  congrArg _ (afterPrecheck_passes s f _ hi hv)

theorem exec_rxBadMarker_of_passes : exec (.rxBadMarker f) s = .next (s.dropFrame .badMarker) :=
  congrArg _ (afterPrecheck_passes s f _ hi hv)

theorem exec_rxReadReply_of_passes :
    exec (.rxReadReply f) s = .next (s.afterMatch f[3] .awaitRead (State.readReply f)) :=
  congrArg _ (afterPrecheck_passes s f _ hi hv)

theorem exec_rxModelReply_of_passes :
    exec (.rxModelReply f) s = .next (s.afterMatch f[3] .awaitModel (State.modelReply f)) :=
  congrArg _ (afterPrecheck_passes s f _ hi hv)

/-- A READ reply to an entry that awaits it does what its class says (R220 to R222). -/
theorem exec_rxReadReply_of_matches (hvalid : (s.ptAt f[3]).valid = true) (hstage : (s.ptAt f[3]).stage = .awaitRead) :
    exec (.rxReadReply f) s = .next (State.readReply f (s.ptAt f[3]) s) := by
  rw [exec_rxReadReply_of_passes hi hv, afterMatch_passes _ _ _ _ hvalid hstage]

/-- A LIST-MODEL reply to an entry that awaits it ends the identification (R223). -/
theorem exec_rxModelReply_of_matches (hvalid : (s.ptAt f[3]).valid = true) (hstage : (s.ptAt f[3]).stage = .awaitModel) :
    exec (.rxModelReply f) s = .next (State.modelReply f (s.ptAt f[3]) s) := by
  rw [exec_rxModelReply_of_passes hi hv, afterMatch_passes _ _ _ _ hvalid hstage]

end

-- What one RxStep can do to PT and TC

section

variable {i : Instr} {s t : State}

/-- What an inbound frame can do: leave PT, TC and the transport, register a follow-up, do so in place of an entry it clears, or
end an identification (R210 to R224). -/
theorem Effect.rxStep_cases (e : Effect i s t) (hb : inbound i = true) :
    (t.pt = s.pt ∧ t.tc = s.tc ∧ t.txLog = s.txLog) ∨
    (sends i = true ∧ ∃ k pl entry, t = s.followup k pl entry) ∨
    (sends i = true ∧ ∃ f k pl entry, i = .rxReadReply f ∧ t = (s.clearPt f[3]).followup k pl entry) ∨
    ∃ f tag, (i = .rxReadReply f ∨ i = .rxModelReply f) ∧ (s.ptAt f[3]).valid = true ∧
      t = s.resolve f[3] (s.ptAt f[3]) tag := by
  cases e with
  | drop | cksum | event => exact .inl ⟨rfl, rfl, rfl⟩
  | ask f k pl entry _ _ hs => exact .inr (.inl ⟨hs, k, pl, entry, rfl⟩)
  | askAgain f k pl entry hi _ hs => exact .inr (.inr (.inl ⟨hs, f, k, pl, entry, hi, rfl⟩))
  | resolve f tag hi _ _ hv => exact .inr (.inr (.inr ⟨f, tag, hi, hv, rfl⟩))
  | answer _ _ _ h | send _ _ _ h => simp [hb] at h
  | init h => rcases h with rfl | rfl <;> simp [inbound] at hb
  | pop _ _ h | clear _ h | ctrl _ h => subst h; simp [inbound] at hb

/-- An inbound frame that cannot send transmits nothing. -/
theorem Effect.keeps_txLog_of_not_sends (e : Effect i s t) (hb : inbound i = true) (hs : sends i = false) :
    t.txLog = s.txLog := by
  rcases e.rxStep_cases hb with ⟨-, -, h⟩ | ⟨h, -⟩ | ⟨h, -⟩ | ⟨f, tag, -, -, rfl⟩
  · exact h
  · simp [hs] at h
  · simp [hs] at h
  · exact s.resolve_txLog ..

/-- What an RxStep does to one entry of PT: nothing, or it registers a follow-up under CTR, or it clears the entry a reply
answers (R220, R221, R223, R224). -/
theorem Effect.ptAt_cases (e : Effect i s t) (hb : inbound i = true) (c : Byte) :
    t.ptAt c = s.ptAt c ∨
    (c = s.ctr ∧ sends i = true ∧ t.ctr = s.ctr + 1 ∧ (t.ptAt c).valid = true) ∨
    ∃ f, (i = .rxReadReply f ∨ i = .rxModelReply f) ∧ c = f[3] ∧ (t.ptAt c).valid = false := by
  rcases e.rxStep_cases hb with ⟨h, -, -⟩ | ⟨hs, k, pl, entry, rfl⟩ | ⟨hs, f, k, pl, entry, hi, rfl⟩ | ⟨f, tag, hi, -, rfl⟩
  · exact .inl (by rw [ptAt_eq, ptAt_eq, h])
  · rcases s.followup_ptAt_cases k pl entry c with h | ⟨hc, hvalid⟩
    · exact .inl h
    · exact .inr (.inl ⟨hc, hs, s.followup_ctr .., hvalid⟩)
  · rcases (s.clearPt f[3]).followup_ptAt_cases k pl entry c with h | ⟨hc, hvalid⟩
    · rw [h]
      exact (ptAt_clearPt_cases s f[3] c).imp_right fun ⟨hc, hcleared⟩ => .inr ⟨f, .inl hi, hc, hcleared⟩
    · exact .inr (.inl ⟨hc, hs, (s.clearPt f[3]).followup_ctr .., hvalid⟩)
  · by_cases hc : c = f[3]
    · exact .inr (.inr ⟨f, hi, hc, by rw [hc, State.resolve_ptAt_same]⟩)
    · exact .inl (s.resolve_ptAt_other _ _ _ hc)

/-- What an RxStep does to TC: nothing, or it adds the uncached uid of the valid entry a reply answers (R220, R223, R225). -/
theorem Effect.tc_gains (e : Effect i s t) (hb : inbound i = true) :
    t.tc = s.tc ∨ ∃ f tag, (i = .rxReadReply f ∨ i = .rxModelReply f) ∧ (s.ptAt f[3]).valid = true ∧
      s.tcLookup (s.ptAt f[3]).uid = none ∧ t.tc = cacheAdd s.tc (s.ptAt f[3]).uid tag := by
  rcases e.rxStep_cases hb with ⟨-, h, -⟩ | ⟨-, k, pl, entry, rfl⟩ | ⟨-, f, k, pl, entry, -, rfl⟩ | ⟨f, tag, hi, hvalid, rfl⟩
  · exact .inl h
  · exact .inl (s.followup_tc ..)
  · exact .inl ((s.clearPt f[3]).followup_tc ..)
  · rw [State.resolve_tc]
    rcases tcInsert_cases (s.clearPt f[3]) (s.ptAt f[3]).uid tag with ⟨-, h⟩ | ⟨-, -, h⟩ | ⟨hnone, -, h⟩ <;> rw [h]
    · exact .inl rfl
    · exact .inl rfl
    · exact .inr ⟨f, tag, hi, hvalid, hnone, rfl⟩

end

end Sys2Proof.Machine

open Sys2Proof Sys2Proof.Machine

/-- Settles O28: each class runs its body after the pre-checks, whose two drops are words of STATUS. -/
theorem precheckDrops : Obligations.PrecheckDrops := by
  intro f s i hclass
  obtain ⟨body, hexec⟩ := exec_eq_afterPrecheck s hclass
  refine ⟨fun hi => ?_, fun hi hr hbad => ?_⟩ <;> rw [hexec]
  · rw [afterPrecheck_of_notInit hi, dropFrame_eq_withStatus]; rfl
  · rw [afterPrecheck_of_badChecksum hi hr hbad, State.dropFrame, State.setFlag, cksum_status]

/-- Settles O29: past the pre-checks both classes drop. -/
theorem badPrefixAndMarkerDropped : Obligations.BadPrefixAndMarkerDropped := fun f s hi hv => by
  rw [exec_rxBadPrefix_of_passes hi hv, exec_rxBadMarker_of_passes hi hv, dropFrame_eq_withStatus, dropFrame_eq_withStatus]
  exact ⟨rfl, rfl⟩

/-- Settles O30: R214 tests the pad before the action. -/
theorem unknownPadOrActionDropped : Obligations.UnknownPadOrActionDropped := by
  refine fun f s hi hv => ⟨fun hpad => ?_, fun hpad hadded hremoved => ?_⟩
  · rw [exec_rxEvent_of_passes hi hv, rxEvent_of_badPad hpad, dropFrame_eq_withStatus]; rfl
  · rw [exec_rxEvent_of_passes hi hv, rxEvent_of_badAction hpad hadded hremoved, dropFrame_eq_withStatus]; rfl

/-- Settles O31: the event is ADDED's, and the lookup hits. -/
theorem cachedTagReportedAtOnce : Obligations.CachedTagReportedAtOnce := fun f s tag hi hv hpad hact hcached => by
  rw [exec_rxEvent_of_passes hi hv, rxEvent_of_added hpad hact, State.eventAdded, hcached]
  rfl

/-- Settles O32: the event is ADDED's, the lookup misses, and a follow-up of at most 27 bytes has two ends. -/
theorem uncachedTagStartsIdentification : Obligations.UncachedTagStartsIdentification := by
  intro f s hi hv hpad hact huncached
  rw [exec_rxEvent_of_passes hi hv, rxEvent_of_added hpad hact, State.eventAdded, huncached]
  dsimp only
  have hlen := readPayload_length_le s.cfg f[4]
  refine ⟨fun ha => ?_, fun ha => ?_⟩
  · rw [followup_of_ok hlen ha]; rfl
  · rw [followup_of_err hlen ha]; rfl

/-- Settles O33: the event is REMOVED's. -/
theorem removedReportedFromCache : Obligations.RemovedReportedFromCache := fun f s hi hv hpad hne hact => by
  rw [exec_rxEvent_of_passes hi hv, rxEvent_of_removed hpad hne hact]
  rfl

/-- Settles O34: the two drops of MATCH. -/
theorem unmatchedReplyDropped : Obligations.UnmatchedReplyDropped := by
  intro f s hi hv
  rw [exec_rxReadReply_of_passes hi hv, exec_rxModelReply_of_passes hi hv]
  refine ⟨fun hinvalid => ?_, fun hvalid hstage => ?_, fun hvalid hstage => ?_⟩
  · rw [afterMatch_of_invalid hinvalid, afterMatch_of_invalid hinvalid, dropFrame_eq_withStatus]
    exact ⟨rfl, rfl⟩
  all_goals
    rw [afterMatch_of_wrongStage hvalid (by simp [hstage]), dropFrame_eq_withStatus]
    rfl

/-- Settles O35: TCInsert's three cases, and what a lookup finds in a list with one uid more. -/
theorem firstCacheInsertionWins : Obligations.FirstCacheInsertionWins := by
  intro s uid tag
  rcases tcInsert_cases s uid tag with ⟨hhit, h⟩ | ⟨hmiss, hfull, h⟩ | ⟨hmiss, hroom, h⟩
  · exact ⟨fun _ => h, fun hmiss => absurd hmiss hhit, fun hmiss => absurd hmiss hhit⟩
  · exact ⟨fun hhit => absurd hmiss hhit, fun _ _ => h, fun _ hroom => absurd hfull hroom⟩
  · refine ⟨fun hhit => absurd hmiss hhit, fun _ hfull => absurd hfull hroom, fun _ _ => ?_⟩
    rw [h]
    exact ⟨cacheFind_cacheAdd_same _ _ _ hmiss, fun u hu => cacheFind_cacheAdd_other _ _ _ _ hu, cacheAdd_length .., rfl⟩

/-- Settles O36: both replies end their identification by `State.resolve`. -/
theorem identificationResolves : Obligations.IdentificationResolves := by
  intro f s hi hv hvalid
  have resolves (tag : Tag) := s.resolve_effect f[3] (s.ptAt f[3]) tag
  refine ⟨fun hstage hclass => ⟨_, ?_, resolves _⟩, fun hstage => ⟨_, ?_, resolves _⟩⟩
  · rw [exec_rxReadReply_of_matches hi hv hvalid hstage, readReply_of_vehicle hclass]
  · rw [exec_rxModelReply_of_matches hi hv hvalid hstage, ← replyBlock_eq]; rfl

/-- Settles O37: the follow-up runs on the state with the entry cleared; its payload of 8 bytes has the declared length. -/
theorem characterAsksForItsModel : Obligations.CharacterAsksForItsModel := by
  intro f s hi hv hvalid hstage hclass
  rw [exec_rxReadReply_of_matches hi hv hvalid hstage, readReply_of_character hclass]
  have hlen (b : Block) : b.toList.length ≤ 27 := by simp
  have hdeclared (b : Block) : b.toList.length + 2 = (catalogRow (s.clearPt f[3]).cfg 0x08).len.toNat := by simp [catalogRow]
  refine ⟨fun ha => ?_, fun ha => ?_⟩
  · rw [followup_of_ok (s := s.clearPt f[3]) (hlen _) ha]
    simp only [if_pos (hdeclared _), clearPt_valid_iff]
    rfl
  · rw [followup_of_err (s := s.clearPt f[3]) (hlen _) ha]
    simp only [if_pos (hdeclared _)]
    rfl

/-- Settles O38: the matched reply drops, and a drop leaves PT. -/
theorem unknownDiscriminatorDropped : Obligations.UnknownDiscriminatorDropped := fun f s hi hv hvalid hstage hclass => by
  rw [exec_rxReadReply_of_matches hi hv hvalid hstage, readReply_of_unknown hclass, dropFrame_eq_withStatus]
  rfl

/-- Settles O39: EVQ, the transport, CTR, one entry of PT and TC, each by what an RxStep's effect can do to it. -/
theorem rxStepBounds : Obligations.RxStepBounds := by
  intro f s t i hclass h reply sender
  have he := effect_of_exec h
  obtain ⟨hb, hsender, hframe⟩ := class_facts hclass
  refine ⟨?_, ?_, ?_, fun c hvalid => ?_, fun c hvalid => ?_, fun c hctr h3 => ?_, ?_⟩
  · rcases he.evq_cases with h | h | ⟨r, -, hanswer⟩
    · exact .inl h
    · exact .inr h
    · have hsilent : t.responses = s.responses := by simpa [hb] using he.responses_cases
      simp [hsilent] at hanswer
  · cases hs : sends i
    · exact .inl (he.keeps_txLog_of_not_sends hb hs)
    · exact he.sentAtMostOne.imp_right fun ⟨x, hx, _⟩ => ⟨hsender hs, _, hx⟩
  · exact he.ctr_cases.imp_right fun ⟨hc, hs, _⟩ => ⟨hsender hs, hc⟩
  · rcases he.ptAt_cases hb c with h | ⟨hc, hs, hctr, -⟩ | ⟨g, -, -, hcleared⟩
    · exact .inl h
    · exact .inr ⟨hc, hsender hs, hctr⟩
    · simp [hvalid] at hcleared
  · rcases he.ptAt_cases hb c with h | ⟨-, -, -, hvalid'⟩ | ⟨g, hg, hc, -⟩
    · exact .inl (h ▸ hvalid)
    · exact .inl hvalid'
    · cases hframe g hg
      exact .inr ⟨hc, hg⟩
  · rcases he.ptAt_cases hb c with h | ⟨hc, -⟩ | ⟨g, hg, hc, -⟩
    · exact h
    · exact absurd hc hctr
    · cases hframe g hg
      exact absurd hc h3
  · rcases he.tc_gains hb with h | ⟨g, tag, hg, hvalid, hnone, htc⟩
    · exact .inl h
    · cases hframe g hg
      have hfound (u : Uid) : t.tcLookup u = cacheFind (cacheAdd s.tc (s.ptAt f[3]).uid tag) u := by rw [State.tcLookup, htc]
      refine .inr ⟨hg, hvalid, hnone, ?_, fun u hu => ?_, ?_⟩
      · rw [hfound, cacheFind_cacheAdd_same _ _ _ hnone]; simp
      · rw [hfound, cacheFind_cacheAdd_other _ _ _ _ hu]; rfl
      · rw [htc, cacheAdd_length]

/-- Settles O40: EVT_POP's two cases by the first record of EVQ. -/
theorem evtPopTakesTheOldest : Obligations.EvtPopTakesTheOldest :=
  ⟨fun _ hq => execEvtPop_of_empty hq, fun _ _ _ hq => execEvtPop_of_cons hq, refusesLength_of_reqLen fun _ => rfl⟩

/-- Settles O42: the bytes of a Tag and of an entry, and the two request lengths. -/
theorem tableReadsAnswer : Obligations.TableReadsAnswer := by
  refine ⟨fun uid s => ?_, fun c s => ?_, refusesLength_of_reqLen fun _ => rfl, refusesLength_of_reqLen fun _ => rfl⟩
  · change Host.Outcome.next (s.respond .ok 0x00 (lookupBytes (s.tcLookup uid))) = _
    rcases s.tcLookup uid with _ | ⟨_ | _, id⟩ <;> rfl
  · change Host.Outcome.next (s.respond .ok 0x00 (entryBytes (s.ptAt c))) = _
    rcases s.ptAt c with ⟨_ | _, _ | _, pad, idx, uid⟩ <;> rfl
end

section
/-! Dispatch and the control operations (43_control.md R259 to R265): the refusal of a request that does not decode, the bits of
STATUS as read and of CTRL as written. -/

namespace Sys2Proof.Machine

open Sys2Proof

-- Dispatch

/-- A request that does not decode is answered, and nothing else happens (R264, R265). -/
theorem step_of_rejected {s t : State} {b : List Byte} {e : DecodeError}
    (hnext : s.nextEvent = (.host (.request b), t)) (hd : decodeRequest b = .rejected e) :
    step s = .next (t.respondRejected e) := by
  simp only [step, hnext, hd]

/-- R128 gives a request no length where R107 does not assign its OP. -/
theorem reqLen_of_unassigned {op : Byte} (h : op ∉ [0x00, 0x01, 0x02, 0x03, 0x04, 0x10, 0x11, 0x12, 0x13, 0x14, 0x15, 0x20,
    0x21, 0x22, 0x30, 0x31, (0x32 : Byte)]) (rest : List Byte) : reqLen (op :: rest) = none := by
  simp only [List.mem_cons, List.not_mem_nil, or_false, BitVec.ofNat_eq_ofNat, BitVec.toNat_eq, BitVec.toNat_ofNat] at h
  simp only [reqLen, List.getD_cons_zero]
  split
  case h_18 => rfl
  all_goals omega

theorem decodeRequest_of_reqLen_none {op : Byte} {rest : List Byte} (h : reqLen (op :: rest) = none) :
    decodeRequest (op :: rest) = .rejected .illegalOp := by
  rw [decodeRequest, if_neg (by simp), h]

-- STATUS and CTRL

theorem evqfull_eq_decide (s : State) : s.evqfull = decide (s.evq.length = evqDepth s.cfg) :=
  Bool.eq_iff_iff.2 ((evqfull_iff s).trans decide_eq_true_iff.symm)

/-- STATUS as read, bit by bit (R33, R34, R261). -/
theorem statusWord_getLsbD (s : State) (i : Nat) (hi : i < 16) : s.statusWord.getLsbD i =
    if i = 0 then s.initDone
    else if i = 9 then decide (0 < s.evq.length)
    else if i = 10 then decide (s.evq.length = evqDepth s.cfg)
    else if i = 11 then false
    else s.status.getLsbD i := by
  rw [State.statusWord, State.evqne, evqfull_eq_decide]
  interval_cases i <;> simp

/-- CTRL keeps bits 0 and 1 of the byte written (R36). -/
theorem ctrlBits_getLsbD (v : Byte) {i : Nat} (hi : i < 2) : (ctrlBits v).getLsbD i = v.getLsbD i := by
  rw [ctrlBits, BitVec.getLsbD_and]
  interval_cases i <;> simp

end Sys2Proof.Machine

open Sys2Proof Sys2Proof.Machine

/-- Settles O7: dispatch rejects each of these requests, an unassigned OP for want of a length, and FRM_CHECKSUM tests its
position itself. -/
theorem refusedRequestsOnlyAnswer : Obligations.RefusedRequestsOnlyAnswer := by
  obtain ⟨hchecksum, -⟩ := codecOperationsAnswer
  refine ⟨fun s t hnext => step_of_rejected hnext rfl, fun s t op rest hnext hop => ?unassigned, ?one, ?two,
    refusesLength_of_reqLen fun _ => rfl, refusesLength_of_reqLen fun _ => rfl, ?nine,
    refusesLength_of_reqLen fun _ => rfl, refusesLength_of_reqLen fun _ => rfl, refusesLength_of_reqLen fun _ => rfl,
    refusesLength_of_reqLen fun _ => rfl, refusesLength_of_reqLen fun _ => rfl, fun s p f hp => ?position⟩
  case unassigned => exact step_of_rejected hnext (decodeRequest_of_reqLen_none (reqLen_of_unassigned hop rest))
  case position => rw [hchecksum, if_pos hp]
  all_goals
    intro op hop
    fin_cases hop <;> exact refusesLength_of_reqLen fun _ => rfl

/-- Settles O44: the bits of `clearedStatus`. -/
theorem statusClearByBits : Obligations.StatusClearByBits :=
  ⟨fun mask s => ⟨_, rfl, rfl, clearedStatus_getLsbD s.status mask⟩, refusesLength_of_reqLen fun _ => rfl⟩

/-- Settles O43: both responses by the formats R108 and R122, and the bits of STATUS as read. -/
theorem nopAndStatusReadAnswer : Obligations.NopAndStatusReadAnswer :=
  ⟨fun _ => rfl, fun _ => rfl, statusWord_getLsbD, refusesLength_of_reqLen fun _ => rfl, refusesLength_of_reqLen fun _ => rfl⟩

/-- Settles O45: the two bits CTRL keeps, of which IRQ reads bit 1. -/
theorem ctrlWriteKeepsTwoBits : Obligations.CtrlWriteKeepsTwoBits := by
  refine ⟨fun _ _ => rfl, fun v s t h => ?_, refusesLength_of_reqLen fun _ => rfl⟩
  cases h
  exact ⟨congrArg (· && s.evqne) (ctrlBits_getLsbD v (by decide)), ctrlBits_getLsbD v (by decide)⟩
end

section
/-! Exceptions (60_exceptions.md R280, R284, R285, R288): the request a step ran, what a refusal leaves, and when the IRQ level
falls. -/

namespace Sys2Proof.Machine

open Sys2Proof

-- The request a step ran

/-- The words of an inbound frame's instruction are that frame (R126). -/
theorem encode_decodeFrame (cfg : Cfg) (f : Frame) : encode cfg (decodeFrame f) = .rx f := by
  unfold decodeFrame
  split_ifs <;> rfl

/-- What a command frame decodes to has its words on the command port (assumption log 11). -/
theorem encode_of_decodeCommand {cfg : Cfg} {b : List Byte} {i : Instr} (h : decodeCommand cfg b = .ok i) (cfg' : Cfg) :
    ∃ f, encode cfg' i = .host (.command f) := by
  unfold decodeCommand at h
  split at h
  · cases h
  split at h
  · unfold wireInstr at h
    split at h <;> cases h <;> exact ⟨_, rfl⟩
  · cases h

/-- A step that answers a next state is a reset, leaves or only answers, or has the effect of one instruction; where that
instruction's words are a request, the step took this request (R48, R259). -/
theorem step_effect_request {s t : State} (h : step s = .next t) :
    s.rst = true ∨ t = s ∨ (∃ rc w d, t = s.nextEvent.2.respond rc w d) ∨
    ∃ i, Effect i s.nextEvent.2 t ∧ ∀ b, encode s.cfg i = requestCode b → s.hostq = .request b :: t.hostq := by
  rcases step_cases s with ⟨hr, -⟩ | ⟨-, hstep⟩ | ⟨-, b, e, -, -, hstep⟩ | ⟨-, -, hstep⟩ | ⟨-, i, hstep, hsource⟩
  · exact .inl hr
  · rw [hstep] at h; cases h
    exact .inr (.inl rfl)
  · rw [hstep] at h; cases h
    exact .inr (.inr (.inl (by cases e <;> exact ⟨_, _, _, rfl⟩)))
  · rw [hstep] at h; cases h
  · have he := effect_of_exec (hstep ▸ h)
    obtain ⟨-, hhostq, -⟩ := he.keeps_offered
    refine .inr (.inr (.inr ⟨i, he, fun b hwords => ?_⟩))
    rcases hsource with ⟨f, -, rfl⟩ | ⟨b', hevent, hd⟩ | ⟨f, -, hd⟩
    · rw [encode_decodeFrame] at hwords
      cases hwords
    · rw [(acceptedRequestsAreEncodings s.cfg b' i hd).2] at hwords
      cases hwords
      rw [hhostq, ← nextEvent_host s _ hevent]
    · obtain ⟨g, hg⟩ := encode_of_decodeCommand hd s.cfg
      rw [hg] at hwords
      cases hwords

-- What a refusal leaves

/-- The ends of a send answer OK, E_PROTOCOL or E_TRANSPORT (R148), none of which is a refusal's code. -/
theorem SendStatus.rc_byte_not_refusal (x : SendStatus) : x.rc.byte ∉ [0x81, 0x84, 0x85, 0x86, (0x87 : Byte)] := by
  cases x <;> decide

/-- TX_INIT is refused, or it answers as a send ends (R150). -/
theorem State.hostInit_answers (s : State) : s.hostInit = s.respond .alreadyInit 0x00 [] ∨
    ∃ (x : SendStatus) (w : Byte) (d : List Byte), s.hostInit.responses = s.responses ++ [x.rc.byte :: w :: d] := by
  rcases hostInit_cases s with ⟨-, h⟩ | ⟨-, -, h⟩ | ⟨-, -, -, h⟩ | ⟨-, -, -, h⟩ <;> rw [h]
  · exact .inl rfl
  · exact .inr ⟨.lenErr, _, _, congrArg (· ++ _) (s.setFlagIf_responses _ _)⟩
  · exact .inr ⟨.txFail, _, _, congrArg (· ++ _) (s.setFlagIf_responses _ _)⟩
  · exact .inr ⟨.sent, _, _, congrArg (· ++ _) (s.setFlagIf_responses _ _)⟩

variable {i : Instr} {s t : State}

/-- An instruction changes nothing but the responses, or answers as a send ends, or is an inbound frame's and does not answer
(R104, R210, R285). -/
theorem Effect.answer_cases (e : Effect i s t) :
    t = { s with responses := t.responses } ∨
    (∃ (x : SendStatus) (w : Byte) (d : List Byte), t.responses = s.responses ++ [x.rc.byte :: w :: d]) ∨
    t.responses = s.responses := by
  cases e with
  | answer => exact .inl rfl
  | send opc len pl => exact .inr (.inl ⟨(s.send opc len pl).st, _, _, congrArg (· ++ _) (s.send_next_responses opc len pl)⟩)
  | init =>
    rcases s.hostInit_answers with h | h
    · exact .inl (by rw [h]; rfl)
    · exact .inr (.inl h)
  | pop | clear | ctrl => exact .inr (.inl ⟨.sent, _, _, rfl⟩)
  | drop | cksum | event | ask | askAgain | resolve => exact .inr (.inr (by simp))

-- The IRQ level

/-- IRQ is 1 while IRQ_EN is 1 and EVQ holds a record (R52, R284). -/
theorem irq_iff (s : State) : s.irq = true ↔ s.ctrl.getLsbD 1 = true ∧ s.evq ≠ [] := by
  simp [State.irq, State.irqEn, State.evqne, List.length_pos_iff]

/-- EVT_POP takes the record at the front of EVQ, if any (R229). -/
theorem evq_of_exec_evtPop (h : exec .evtPop s = .next t) : t.evq = s.evq.tail := by
  change execEvtPop s = _ at h
  cases hq : s.evq with
  | nil => rw [execEvtPop_of_empty hq] at h; cases h; exact hq
  | cons r rest => rw [execEvtPop_of_cons hq] at h; cases h; rfl

/-- An instruction keeps IRQ at 1, but for an EVT_POP of the only record and a CTRL_WRITE that clears IRQ_EN (R284). -/
theorem Effect.irq_cases (e : Effect i s t) (hs : s.irq = true) :
    t.irq = true ∨ (i = .evtPop ∧ s.evq.length = 1 ∧ t.evq = []) ∨ ∃ v, i = .ctrlWrite v ∧ v.getLsbD 1 = false := by
  obtain ⟨hen, hne⟩ := (irq_iff s).1 hs
  cases e with
  | pop r rest hi hq =>
    cases rest with
    | nil => exact .inr (.inl ⟨hi, by rw [hq]; rfl, rfl⟩)
    | cons r' rest => exact .inl ((irq_iff _).2 ⟨hen, List.cons_ne_nil r' rest⟩)
  | ctrl v hi =>
    cases hv : v.getLsbD 1
    · exact .inr (.inr ⟨v, hi, hv⟩)
    · exact .inl ((irq_iff _).2 ⟨(ctrlBits_getLsbD v (by decide)).trans hv, hne⟩)
  | resolve => exact .inl ((irq_iff _).2 ⟨by simpa [State.resolve] using hen, by simp⟩)
  | _ => exact .inl ((irq_iff _).2 (by simp [hen, hne]))

end Sys2Proof.Machine

open Sys2Proof Sys2Proof.Machine

/-- Settles O57: of the things a step can do, only the refusal of a frame on the command port answers no next state. -/
theorem noStepTraps : Obligations.NoStepTraps := fun s => by
  rcases step_cases s with ⟨-, h⟩ | ⟨-, h⟩ | ⟨-, b, e, -, -, h⟩ | ⟨-, ⟨f, hs, e, hq, hd⟩, h⟩ | ⟨-, i, h, -⟩
  · exact .inl ⟨_, h⟩
  · exact .inl ⟨_, h⟩
  · exact .inl ⟨_, h⟩
  · exact .inr ⟨f, hs, e, hq, hd, h⟩
  · rw [h]
    exact .inl (exec_next _ i)

/-- Settles O56: by `Effect.answer_cases`, an instruction that changes more answers with another code or not at all. -/
theorem refusedRequestLeavesTheState : Obligations.RefusedRequestLeavesTheState := fun i s t rc w d h hresp hrc => by
  rcases (effect_of_exec h).answer_cases with honly | ⟨x, w', d', hsend⟩ | hsilent
  · exact honly
  · obtain ⟨rfl, -⟩ : rc = x.rc.byte ∧ w = w' ∧ d = d' := by simpa [hresp] using hsend
    exact absurd hrc x.rc_byte_not_refusal
  · simp [hsilent] at hresp

/-- Settles O46: by `Effect.irq_cases`, the words of EVT_POP and CTRL_WRITE being requests. -/
theorem irqFollowsTheQueue : Obligations.IrqFollowsTheQueue := by
  refine ⟨fun _ => rfl, fun s t h hlen => ?_, fun s t h hs ht => ?_⟩
  · have hempty : t.evq = [] := by
      rw [evq_of_exec_evtPop h, ← List.length_eq_zero_iff, List.length_tail]
      omega
    exact Bool.eq_false_iff.2 fun hirq => ((irq_iff t).1 hirq).2 hempty
  · have hlow : t.irq ≠ true := Bool.eq_false_iff.1 ht
    have hnext : s.nextEvent.2.irq = true := by simpa [irq_iff] using hs
    rcases step_effect_request h with hr | rfl | ⟨rc, w, d, rfl⟩ | ⟨i, he, htook⟩
    · exact .inl hr
    · exact absurd hs hlow
    · exact absurd hnext hlow
    · rcases he.irq_cases hnext with hkept | ⟨rfl, hone, hempty⟩ | ⟨v, rfl, hv⟩
      · exact absurd hkept hlow
      · exact .inr (.inl ⟨htook _ rfl, by simpa using hone, hempty⟩)
      · exact .inr (.inr ⟨v, htook _ rfl, hv⟩)
end

section
/-! Reset and the hold of inbound frames (70_reset_and_hazards.md R310, R311, R316, R324): the step of an asserted reset input,
the quiescent step, and the frames the transport holds while EVQ is full. -/

namespace Sys2Proof.Machine

open Sys2Proof

variable {s t : State}

-- Reset

/-- An asserted reset input is the whole step (R310). -/
theorem step_of_rst (hr : s.rst = true) : step s = .next s.resetCore := by
  simp [step, State.nextEvent, hr]

@[simp] theorem State.resetCore_ptAt (s : State) (c : Byte) : s.resetCore.ptAt c = PtEntry.blank := by simp [ptAt_eq]

/-- The computed bits of STATUS fall with INIT_DONE and EVQ (R311). -/
@[simp] theorem State.resetCore_statusWord (s : State) : s.resetCore.statusWord = 0 := by
  simp [State.statusWord, State.evqfull, State.evqne]

@[simp] theorem State.resetCore_irq (s : State) : s.resetCore.irq = false := by simp [State.irq, State.evqne]

/-- The state right after reset is what a reset makes of itself. -/
theorem resetCore_reset : State.reset.resetCore = State.reset := rfl

-- No frame is taken

theorem evqRoom_of_full (hfull : evqDepth s.cfg ≤ s.evq.length) : s.evqRoom = false :=
  Bool.eq_false_iff.2 fun room => absurd ((evqRoom_iff s).1 room) hfull.not_gt

/-- With nothing outstanding, and no frame offered or no room for its record, the next event is none (R324). -/
theorem nextEvent_of_quiescent (hr : s.rst = false) (hq : s.hostq = [])
    (hx : s.rxq = [] ∨ evqDepth s.cfg ≤ s.evq.length) : s.nextEvent = (.idle, s) := by
  rcases hx with hf | hfull
  · simp [State.nextEvent, hr, hq, hf]
  · cases hf : s.rxq <;> simp [State.nextEvent, hr, hq, hf, evqRoom_of_full hfull]

/-- While EVQ is full the next event leaves the offered frames to the transport (R51, R316). -/
theorem nextEvent_rxq_of_full (hfull : evqDepth s.cfg ≤ s.evq.length) : s.nextEvent.2.rxq = s.rxq := by
  cases hr : s.rst with
  | true => simp [State.nextEvent, hr]
  | false =>
    cases hq : s.hostq with
    | nil => rw [nextEvent_of_quiescent hr hq (.inr hfull)]
    | cons x hs => rw [(nextEvent_eq_host hr hq).1 (.inr hfull)]

theorem step_keeps_rxq_of_full (hfull : evqDepth s.cfg ≤ s.evq.length) (h : step s = .next t) : t.rxq = s.rxq := by
  have hheld := nextEvent_rxq_of_full hfull
  rcases step_effect h with ⟨-, rfl⟩ | ⟨-, rfl⟩ | ⟨-, rc, w, d, rfl⟩ | ⟨-, i, -, he, -⟩
  · rfl
  · rfl
  · exact hheld
  · obtain ⟨-, -, hrxq, -⟩ := he.keeps_offered
    rw [hrxq, hheld]

end Sys2Proof.Machine

open Sys2Proof Sys2Proof.Machine

/-- Settles O2: what `resetCore` keeps. -/
theorem resetLeavesTheOutside : Obligations.ResetLeavesTheOutside := fun s hr =>
  ⟨s.resetCore, step_of_rst hr, s.resetCore_rxq, s.resetCore_hostq, s.resetCore_responses, s.resetCore_txLog⟩

/-- Settles O6: a full EVQ keeps frames from the next event, and every effect leaves them; the quiescent next event is none. -/
theorem fullQueueHoldsFrames : Obligations.FullQueueHoldsFrames := by
  refine ⟨fun s t _ hfull h => step_keeps_rxq_of_full hfull h, fun s hr hq hx => ?_⟩
  rw [step, nextEvent_of_quiescent hr hq hx]

/-- Settles O1: the values `resetCore` writes; an invalid entry shows as zeros. -/
theorem resetSetsEveryPieceOfState : Obligations.ResetSetsEveryPieceOfState := fun s hr =>
  ⟨s.resetCore, step_of_rst hr, s.resetCore_ctr, s.resetCore_initDone, s.resetCore_status, s.resetCore_statusWord,
    s.resetCore_ctrl, fun c => by rw [s.resetCore_ptAt c]; exact ⟨rfl, rfl⟩, s.resetCore_tc, s.resetCore_evq,
    s.resetCore_irq, s.resetCore_cfg⟩

/-- Settles O3: the values a reset writes, `State.reset` being what a reset makes of itself. -/
theorem resetStateValues : Obligations.ResetStateValues := by
  unfold Obligations.ResetStateValues
  rw [← resetCore_reset]
  simp [PtEntry.blank]
end
